-- ==== Sys2Proof/Word.lean ====
section
/-! DEFINITION. The words of the NL84 and their plainest arithmetic (spec/00_scope.md, Conventions). -/

namespace Sys2Proof

/-- One byte of a telegram, a store row or the configuration block. -/
abbrev Byte := BitVec 8

/-- A card number: a 32-bit unsigned value (00_scope, Numbers; R25). -/
abbrev CardNumber := BitVec 32

/-- The sequence number of a deposit record: 24 bits, wrapping (R91). -/
abbrev Sequence := BitVec 24

/-- A moment of the station's own timebase, in microseconds (00_scope, Events and time). -/
abbrev Moment := Nat

/-- A saturating counter: it stops at its maximum and stays there (00_scope, Saturation and clamping). -/
def satAdd (top a b : Nat) : Nat := min top (a + b)

/-- A value out of its range takes the nearer end of the range (00_scope, Saturation and clamping). -/
def clamp (lo hi x : Nat) : Nat := if x < lo then lo else if hi < x then hi else x

/-- The distance of two values, without sign. -/
def absDiff (a b : Nat) : Nat := if a ≤ b then b - a else a - b

end Sys2Proof
end

