-- ==== Sys2Proof/Syntax.lean ====
section
/-! DEFINITION. The commands: one constructor for each row of spec/opcode_table.json, in the table's order. Every command
carries `dt`, the microseconds of the station's own timebase since the command before it (DESIGN CHOICE, log entry 1); the
other operands are the inputs the command reads (DESIGN CHOICE, log entry 4). -/

namespace Sys2Proof

/-- A character heard on the street line or on the depot port: its eight data bits, and whether its stop bit came
(R130, R176). -/
structure HeardChar where
  value : Byte
  stop  : Bool
  deriving DecidableEq, Repr

/-- A debounced change of the end switch, or its settling, with the microseconds before it (R110, R120; DESIGN CHOICE, log
entry 16). -/
structure EndSwitchEvent where
  dt       : Nat
  isActive : Bool
  deriving DecidableEq, Repr

/-- The commands of the NL84. -/
inductive Instr where
  /-- POWER_ON (R188): The supply rises past the operating level and the node runs a start with cause POWER. -/
  | powerOn (dt : Nat)
  /-- RESET_PIN (R188): The RESET pin is released after being held active, and the node runs a start with cause PIN. -/
  | resetPin (dt : Nat)
  /-- RESTART (R189): A RESTART telegram concerning the node is taken, and a start with cause TELEGRAM begins. -/
  | restart (dt : Nat)
  /-- CONFIGURATION_READ (R185): The read of the configuration block ends, and its outcome is reported to every unit. `block`: the bytes the configuration memory delivers, none when it does not answer. -/
  | configurationRead (dt : Nat) (block : List Byte)
  /-- SOUNDING_DUE (R21): The due time of the sounding request is reached, and the request either starts a sounding or enters HELD. `reading`: the temperature input, absent when the sensor gives none (R4). -/
  | soundingDue (dt : Nat) (reading : Option Int)
  /-- PING_SLOT_START (R5): A 60 ms ping slot begins, and the 200 µs burst is sent. -/
  | pingSlotStart (dt : Nat)
  /-- BURST_END (R5): The 200 µs burst time ends, and the transmit output is released. -/
  | burstEnd (dt : Nat)
  /-- BLANKING_END (R5): The blanking time ends, and the unit starts watching the echo input. -/
  | blankingEnd (dt : Nat)
  /-- ECHO_EDGE (R5): The first inactive-to-active echo edge in the window gives the ping result. -/
  | echoEdge (dt : Nat)
  /-- PING_WINDOW_END (R5): 24,000 µs pass without an echo edge, and the ping result is NONE. -/
  | pingWindowEnd (dt : Nat)
  /-- SOUNDING_END (R7): The last ping slot ends, and the sounding is evaluated as FAILED, UNSTEADY or ACCEPTED. -/
  | soundingEnd (dt : Nat)
  /-- PERIODIC_TIMER_EXPIRY (R20): The 30 min periodic timer expires and arms a sounding request due at once. -/
  | periodicTimerExpiry (dt : Nat)
  /-- CARD_READ (R50): The card reader line delivers a card number, which is checked for repeats and then evaluated. `card`: the number delivered. -/
  | cardRead (dt : Nat) (card : CardNumber)
  /-- READ_ERROR (R50): The card reader line delivers READ ERROR, and code 19 is shown. -/
  | readError (dt : Nat)
  /-- WINDOW_EXPIRY (R57): The release window lapses after 10 s, the lock is turned off and the acceptance is discarded. -/
  | windowExpiry (dt : Nat)
  /-- LOCK_PULL_IN_END (R58): The 300 ms pull-in ends, and the lock drive enters HOLD. -/
  | lockPullInEnd (dt : Nat)
  /-- DEFERRED_RELEASE_EXPIRY (R59): The deferred release lapses at 20 s with code 31. -/
  | deferredReleaseExpiry (dt : Nat)
  /-- SERVICE_PERIOD_EXPIRY (R47): The 15 min service period ends, and a station in SERVICE returns to READY. -/
  | servicePeriodExpiry (dt : Nat)
  /-- INDICATION_EXPIRY (R66): A 4 s panel indication ends, and the standing indication is shown again or the panel goes dark. -/
  | indicationExpiry (dt : Nat)
  /-- BUZZER_TONE_END (R65): A 150 ms buzzer tone of an indication ends. -/
  | buzzerToneEnd (dt : Nat)
  /-- HATCH_SETTLED (R48): The debounced hatch state first settles after start, and FORCED OPENING begins if it settles OPEN. `isOpen`: the state it settles in; `reading`: the temperature input, if a sounding starts. -/
  | hatchSettled (dt : Nat) (isOpen : Bool) (reading : Option Int)
  /-- HATCH_OPEN (R61): The debounced hatch state changes to OPEN and acts by hatch phase. -/
  | hatchOpen (dt : Nat)
  /-- HATCH_CLOSED (R62): The debounced hatch state changes to CLOSED, which clears HATCH STUCK and ends the opening. `reading`: the temperature input, if a held sounding starts (R21). -/
  | hatchClosed (dt : Nat) (reading : Option Int)
  /-- HATCH_STUCK (R64): The open timer reaches 90 s, and HATCH STUCK is set. -/
  | hatchStuck (dt : Nat)
  /-- LIFT_SETTLED (R49): The debounced lift state first settles after start. `isLifted`: the state it settles in; `reading`: the temperature input, if a sounding starts. -/
  | liftSettled (dt : Nat) (isLifted : Bool) (reading : Option Int)
  /-- LIFT (R49): The debounced lift state changes to LIFTED and acts by hatch phase. -/
  | lift (dt : Nat)
  /-- SEAT (R49): The debounced lift state changes to SEATED, and a sounding is armed 20 s later. `reading`: the temperature input, if a held sounding starts (R21). -/
  | seat (dt : Nat) (reading : Option Int)
  /-- CARD_UPDATE (R29): A CARD UPDATE telegram is taken from the receive buffer, and its operations are worked in order. -/
  | cardUpdate (dt : Nat)
  /-- ADD (R30): A card record is replaced or placed in its bucket, or BUCKET FULL or MALFORMED is faulted. -/
  | add (dt : Nat)
  /-- REMOVE (R32): The slot holding the card number is freed and its row is written. -/
  | remove (dt : Nat)
  /-- CLEAR (R33): A clear in flight begins, and the table phase becomes CLEARING. -/
  | clear (dt : Nat)
  /-- REVOKE_ADD (R35): A card number is placed on the revocation list, or REVOCATION FULL is faulted. -/
  | revokeAdd (dt : Nat)
  /-- REVOKE_REMOVE (R35): A held revocation position is freed. -/
  | revokeRemove (dt : Nat)
  /-- REVOKE_CLEAR (R36): A revocation clear in flight begins, and the table phase becomes REVOKE CLEARING. -/
  | revokeClear (dt : Nat)
  /-- CLEAR_ROW_WRITE (R33): A clear places the empty row write of its next row when the staging queue admits it. -/
  | clearRowWrite (dt : Nat)
  /-- CARD_TABLE_SCAN_END (R40): The start scan of the card and revocation regions ends, and the table phase becomes OPEN. -/
  | cardTableScanEnd (dt : Nat)
  /-- ROW_PROGRAM_END (R88): A 4 ms row program ends, the entry leaves the staging queue and the next program begins. -/
  | rowProgramEnd (dt : Nat)
  /-- RECORD_APPEND (R95): The oldest append-list item is appended with the next sequence number and an accounting row write. -/
  | recordAppend (dt : Nat)
  /-- ACCOUNTING_WRITE (R93): With accounting due and the append list empty, an accounting row write is placed. -/
  | accountingWrite (dt : Nat)
  /-- CONFIRM_MARK_WRITE (R103): The pending mark is written as the CONFIRMED row of the newest freed record. -/
  | confirmMarkWrite (dt : Nat)
  /-- LOG_SCAN_END (R105): The log start scan finds the held run and repairs the accounting content, and the log phase becomes OPEN. -/
  | logScanEnd (dt : Nat)
  /-- HARVEST_REQUEST (R100): A harvest in flight is fixed, replacing any earlier one. -/
  | harvestRequest (dt : Nat)
  /-- HARVEST_ANSWER (R101): The next HARVEST ANSWER of up to 3 records is built when the transmit queue admits it. -/
  | harvestAnswer (dt : Nat)
  /-- HARVEST_CONFIRM (R103): Held records up to the given sequence are freed, and the pending mark is set. -/
  | harvestConfirm (dt : Nat)
  /-- TALLY_NOTICE (R74): A heard TALLY NOTICE raises or creates the card's heard count, or is ignored or dropped. -/
  | tallyNotice (dt : Nat)
  /-- CLOCK_SECOND (R78): The seconds of day of a SET clock advance by one and may reach the rollover instant. -/
  | clockSecond (dt : Nat)
  /-- TIME (R79): A TIME telegram sets the station clock or rolls it over to a later day. -/
  | time (dt : Nat)
  /-- PRESS_CLAIM (R116): A heard PRESS CLAIM of the own island enters the island claim list. -/
  | pressClaim (dt : Nat)
  /-- PRESS_RELEASE (R116): A heard PRESS RELEASE of the own island removes the sender's entry. -/
  | pressRelease (dt : Nat)
  /-- CLAIM_ENTRY_EXPIRY (R116): An island claim list entry reaches its expiry and is removed. -/
  | claimEntryExpiry (dt : Nat)
  /-- RETRY_TIMER_EXPIRY (R117): The retry timer expires, and the trigger is evaluated. -/
  | retryTimerExpiry (dt : Nat)
  /-- INHIBIT_TIMER_EXPIRY (R118): The 10 min inhibit ends, the press returns to HOME and the trigger is evaluated. -/
  | inhibitTimerExpiry (dt : Nat)
  /-- SOFT_START_STEP (R120): Every 100 ms of a soft start the drive duty rises by 7%, up to 100%. -/
  | softStartStep (dt : Nat)
  /-- LOAD_TRIP (R121): The load comparator trips after the soft start and ends forward drive. -/
  | loadTrip (dt : Nat)
  /-- END_SWITCH_ACTIVE (R121): The end switch reads ACTIVE and ends forward drive. `event`: its `dt` and the level, which is false for the debounced switch's change to INACTIVE, or its settling there, which has no row of its own (R120; DESIGN CHOICE, log entry 16). -/
  | endSwitchActive (event : EndSwitchEvent)
  /-- FORWARD_TIME_LIMIT (R121): Forward drive reaches 20 s and ends. -/
  | forwardTimeLimit (dt : Nat)
  /-- DWELL_END (R121): The dwell ends, and the reverse drive starts with a soft start. -/
  | dwellEnd (dt : Nat)
  /-- HOME_SWITCH_ACTIVE (R121): The home switch reads ACTIVE in reverse, and the cycle, the homing or the recovery ends at home. `reading`: the temperature input, if a held sounding starts (R21). -/
  | homeSwitchActive (dt : Nat) (reading : Option Int)
  /-- REVERSE_TIME_LIMIT (R124): Reverse drive reaches 25 s without reaching home, and the press enters FAULT. -/
  | reverseTimeLimit (dt : Nat)
  /-- HOMING_DRIVE_START (R127): 250 ms after a good configuration, the homing reverse drive starts when the home switch is INACTIVE. -/
  | homingDriveStart (dt : Nat)
  /-- HOME_SWITCH_SETTLED (R127): The home switch first settles at start, which gives HOME without driving or allows the homing drive. `isActive`: the state it settles in; `reading`: the temperature input, if a sounding starts. -/
  | homeSwitchSettled (dt : Nat) (isActive : Bool) (reading : Option Int)
  /-- LINE_IDLE (R135): The line falls idle for 3 ms, and the transmitter takes a candidate and draws its deferral. -/
  | lineIdle (dt : Nat)
  /-- DEFER_WAIT_END (R135): The deferral wait runs out on an idle line, and the transmitter begins sending. -/
  | deferWaitEnd (dt : Nat)
  /-- COLLISION (R137): Readback differs from the bit sent; the transmitter stops, counts the collision and may drop the entry. -/
  | collision (dt : Nat)
  /-- TRANSMISSION_SENT (R136): The last bit is read back as sent, the entry leaves the queue and its owner is told. `supplyLow`: the supply comparator, read once if the telegram is a claim that is granted (R118). -/
  | transmissionSent (dt : Nat) (supplyLow : Bool)
  /-- RECEPTION_END (R142): A complete reception ends, is checked and is dispatched or dropped. `normal`, `inverted`: the characters of the reception as decoded in each sense (R133). -/
  | receptionEnd (dt : Nat) (normal : List HeardChar) (inverted : List HeardChar)
  /-- SILENCE_TIMER_EXPIRY (R133): 5 s pass without a good reception, and the polarity becomes PROVISIONAL. -/
  | silenceTimerExpiry (dt : Nat)
  /-- CORRECTION_TIMER_EXPIRY (R134): The 60 s correction timer expires, and the polarity is fixed NORMAL. -/
  | correctionTimerExpiry (dt : Nat)
  /-- NOTICE_TIMER_EXPIRY (R150): The 60 min notice timer expires, and a FILL NOTICE is offered. -/
  | noticeTimerExpiry (dt : Nat)
  /-- FILL_NOTICE (R152): A heard FILL NOTICE overwrites or creates a neighbour view entry. -/
  | fillNotice (dt : Nat)
  /-- VIEW_ENTRY_EXPIRY (R153): A neighbour view entry reaches 6 h since it was last heard and is removed. -/
  | viewEntryExpiry (dt : Nat)
  /-- REDIRECT_NOTICE (R156): A REDIRECT NOTICE of the own fraction enters or refreshes the redirect-expect list. -/
  | redirectNotice (dt : Nat)
  /-- EXPECT_ENTRY_EXPIRY (R157): A redirect-expect entry reaches 15 min and is removed. -/
  | expectEntryExpiry (dt : Nat)
  /-- RESEND_TIMER_EXPIRY (R163): The 10 min resend timer expires, and the call is resent or LAPSED. -/
  | resendTimerExpiry (dt : Nat)
  /-- LAPSE_REST_EXPIRY (R163): The 2 h LAPSED rest ends, and the call returns to PENDING with its tag. -/
  | lapseRestExpiry (dt : Nat)
  /-- HOLD_OFF_EXPIRY (R167): The 4 h HOLD-OFF rest ends, and the call returns to NONE. -/
  | holdOffExpiry (dt : Nat)
  /-- CALL_ANSWER (R164): A CALL ANSWER for the station schedules or declines the call, or counts as stale. -/
  | callAnswer (dt : Nat)
  /-- CALL (R168): A heard CALL of another station may be joined by a station in NONE and READY. -/
  | call (dt : Nat)
  /-- CALL_JOIN (R168): A heard CALL JOIN of another station may be joined, naming its lead. -/
  | callJoin (dt : Nat)
  /-- DEPOT_FRAME (R176): A frame from the depot port is framed, checked and handled as a depot-kind telegram. `chars`: the characters that arrive, in order. -/
  | depotFrame (dt : Nat) (chars : List HeardChar)
  /-- DEPOT_FRAME_TIMEOUT (R176): More than 20 ms pass between two characters of a frame, and the frame is discarded. -/
  | depotFrameTimeout (dt : Nat)
  /-- DEPOT_TO_LINE_OFFER (R179): The oldest depot telegram is rewritten with the relay as sender and offered to the line. -/
  | depotToLineOffer (dt : Nat)
  /-- DEPOT_FRAME_SEND (R177): With CTS asserted, the depot transmitter begins a frame of the oldest queued telegram. `cts`: the CTS input. -/
  | depotFrameSend (dt : Nat) (cts : Bool)
  /-- DEPOT_FRAME_END (R177): The end character of a depot frame is sent, and the telegram leaves the queue. -/
  | depotFrameEnd (dt : Nat)
  /-- ANSWER_TIMER_EXPIRY (R181): An outstanding entry's 5 s answer timer runs out, and a NO ANSWER is built. -/
  | answerTimerExpiry (dt : Nat)
  /-- RELAY_CLOCK_SECOND (R182): The seconds of day of a SET relay clock advance by one. -/
  | relayClockSecond (dt : Nat)
  /-- ORIGINATION_TIMER_EXPIRY (R182): The 10 min origination timer expires, and the relay offers a TIME to ALL. -/
  | originationTimerExpiry (dt : Nat)
  /-- STATUS_REQUEST (R190): A STATUS REQUEST sets the pending status answer, replacing or abandoning an earlier one. -/
  | statusRequest (dt : Nat)
  /-- STATUS_ANSWER (R191): A status answer part is built and enters the transmit queue when admitted. -/
  | statusAnswer (dt : Nat)
  /-- RESET_PIN_HELD (R188): The RESET pin goes active, and while it is held the node holds its start values and drives every output off. -/
  | resetPinHeld (dt : Nat)
  /-- SUPPLY_FAILS (R88): The supply fails, cutting off every operation at once and tearing the row being programmed. -/
  | supplyFails (dt : Nat)
  /-- RECEPTION_BEGINS (R135): The first character after an idle line is heard, the line is busy, and any deferral wait under way is given up. -/
  | receptionBegins (dt : Nat)
  /-- HOME_SWITCH_CHANGE (R128): In STOPPED the debounced home switch changes, so the press reads at home or away from home and an open crew window may end. `isActive`: the state it changes to. -/
  | homeSwitchChange (dt : Nat) (isActive : Bool)
  deriving DecidableEq, Repr

end Sys2Proof
end

