-- ==== Sys2Proof/Config.lean ====
section
/-! DEFINITION. The free values: what the spec leaves open while the machine goes on. They have no body, so that
nothing can be proved of one. -/

namespace Sys2Proof

/-- The byte that place `place` of the row torn at tear number `tear` holds. R88: "its content is neither the old nor
the new, and it fails its check at the next start scan"; the spec gives no more of it. (DESIGN CHOICE, log entry 8.) -/
opaque Config.tornByte (tear place : Nat) : Byte

/-- The day number that a relay's STATUS ANSWER carries while the relay clock is UNSET and holds no day (R175, R191,
12.2 give the field and no value for that state). `draw` is the number of the free value taken. (DESIGN CHOICE, log
entry 21.) -/
opaque Config.relayUnsetDay (draw : Nat) : BitVec 16

/-- The microseconds between the two tones of a redirect or a refusal: R65 gives each tone 150 ms and no interval. (DESIGN
CHOICE, log entry 17.) -/
opaque Config.toneGap : Nat

/-- The stamp that a touch gives when the touch counter stands at its maximum: R72 says that the touches of a day stay far
below it and gives no value beyond. `stamps` are those of the entries held. (DESIGN CHOICE, log entry 36.) -/
opaque Config.touchBeyond (stamps : List Nat) : BitVec 32

end Sys2Proof
end

