-- ==== Sys2Proof/Machine/State.lean ====
section
/-! DEFINITION. The state of the NL84: one structure for each unit of spec/00_scope.md, with the start values its chapter
gives, and the state after reset. INVENTORY.md lists every field with its rule. -/

namespace Sys2Proof.Machine

/-! ### Named values -/

/-- The two roles (R186). -/
inductive Role where
  | station
  | relay
  deriving DecidableEq, Repr

/-- The five fractions (00_scope, Terms). -/
inductive Fraction where
  | residual
  | paper
  | glass
  | packaging
  | organic
  deriving DecidableEq, Repr

/-- The four card classes, in R25's order. -/
inductive CardClass where
  | resident
  | commercial
  | crew
  | test
  deriving DecidableEq, Repr

/-- The status of a card record (R25). -/
inductive CardStatus where
  | valid
  | suspended
  deriving DecidableEq, Repr

/-- The kind of a start (R188). -/
inductive Cause where
  | power
  | pin
  | telegram
  deriving DecidableEq, Repr

/-- The telegram kinds, in the order of their codes 1 to 19 (R192). -/
inductive Kind where
  | fillNotice
  | tallyNotice
  | redirectNotice
  | pressClaim
  | pressRelease
  | call
  | callJoin
  | callClosed
  | callAnswer
  | time
  | statusRequest
  | statusAnswer
  | harvestRequest
  | harvestAnswer
  | harvestConfirm
  | cardUpdate
  | updateFault
  | restart
  | noAnswer
  deriving DecidableEq, Repr

/-- A telegram: the five header fields (the payload length is the payload's) and the payload (R192). -/
structure Telegram where
  kind    : Kind
  sender  : Nat
  island  : Nat
  dest    : Nat
  payload : List Byte
  deriving DecidableEq, Repr

/-! ### Supply and RESET pin (R188) -/

/-- The supply and the RESET pin: `startWaits` is set when the supply rose with the pin held, so that the start comes
at the pin's release with cause POWER (R188). -/
structure Power where
  supply     : Bool
  pinHeld    : Bool
  startWaits : Bool
  deriving DecidableEq, Repr

/-! ### Configuration and status (11) -/

/-- The unit phase of R184. SAFE the flag is this phase. -/
inductive UnitPhase where
  | reading
  | running
  | safe
  deriving DecidableEq, Repr

/-- The configuration values of R186, as read and clamped. `address` is none only in SAFE (R187). -/
structure Settings where
  role           : Role
  address        : Option Nat
  island         : Nat
  position       : Nat
  fraction       : Fraction
  pressFitted    : Bool
  pressLimit     : Nat
  pressStart     : Nat
  pressEnd       : Nat
  pressThreshold : Nat
  pingCount      : Nat
  blanking       : Nat
  e0             : Nat
  f0             : Nat
  fullThreshold  : Nat
  callThreshold  : Nat
  joinThreshold  : Nat
  joinRadius     : Nat
  bagIncrement   : Nat
  baseRate       : Nat
  rolloverHour   : Nat
  deriving DecidableEq, Repr

/-- A pending status answer (R190): its tag, the part that is next or out, and whether that part is in the transmit
queue. -/
structure PendingAnswer where
  tag  : Nat
  part : Nat
  out  : Bool
  deriving DecidableEq, Repr

/-- The state of R184. -/
structure Control where
  phase    : UnitPhase
  settings : Settings
  clamped  : Bool
  cause    : Cause
  answer   : Option PendingAnswer
  deriving DecidableEq, Repr

/-! ### Sounding (01) -/

/-- The unit states of R1. -/
inductive SoundingPhase where
  | idle
  | waiting
  | held
  | inFlight
  | stopped
  deriving DecidableEq, Repr

/-- The result of a sounding (R1, R8, R7). -/
inductive SoundingResult where
  | accepted
  | unsteady
  | failed
  deriving DecidableEq, Repr

/-- The sounding request: a due time and the markers START and REPEAT (R1, R19). -/
structure SoundingRequest where
  due     : Moment
  start   : Bool
  repeats : Bool
  deriving DecidableEq, Repr

/-- Where the watch of a ping slot stands: before the blanking time's end, watching the echo input, or over (R5). -/
inductive Watch where
  | blanking
  | watching
  | over
  deriving DecidableEq, Repr

/-- The ping slot under way: its start, the transmit output, the watch and the echo time captured (R5). -/
structure PingSlot where
  began   : Moment
  driving : Bool
  watch   : Watch
  echo    : Option Nat
  deriving DecidableEq, Repr

/-- A sounding in flight (R3): the markers of its request, the temperature T, the results of the slots that are over,
the moment of the first burst and the slot under way. -/
structure Flight where
  start       : Bool
  repeats     : Bool
  temperature : Int
  results     : List (Option Nat)
  firstBurst  : Option Moment
  slot        : Option PingSlot
  deriving DecidableEq, Repr

/-- The state of R1. -/
structure Sounding where
  phase       : SoundingPhase
  fill        : Option Nat
  full        : Bool
  sensorFault : Bool
  failures    : Nat
  last        : Option SoundingResult
  median      : Option Nat
  request     : Option SoundingRequest
  periodic    : Option Moment
  flight      : Option Flight
  deriving DecidableEq, Repr

/-! ### Card table (02) -/

/-- A card record (R25). Bit n of `rights` is the right to fraction code n. -/
structure CardRecord where
  number    : CardNumber
  cls       : CardClass
  rights    : BitVec 5
  allowance : BitVec 4
  band      : BitVec 2
  status    : CardStatus
  deriving DecidableEq, Repr

/-- The table phase of R26. -/
inductive TablePhase where
  | scanning
  | opened
  | clearing
  | revokeClearing
  deriving DecidableEq, Repr

/-- An operation of a CARD UPDATE as its bytes give it (12.1): an ADD's fields are unchecked (R31). -/
inductive CardOp where
  | add (number : CardNumber) (cls status rights tariff : Byte)
  | remove (number : CardNumber)
  | clear
  | revokeAdd (number : CardNumber)
  | revokeRemove (number : CardNumber)
  | revokeClear
  | unknown
  deriving DecidableEq, Repr

/-- The CARD UPDATE being worked (R29): its operations not yet worked, each with its index 1 to 3, and whether the
telegram still stands in the receive buffer; the operations are the held operations of R26 once it does not. -/
structure CardUpdate where
  ops      : List (Nat × CardOp)
  buffered : Bool
  deriving DecidableEq, Repr

/-- The state of R26. `slots` lists the occupied slots by slot number (4 × bucket + slot), rising; `revoked` the held
positions by position, rising. -/
structure Cards where
  phase       : TablePhase
  slots       : List (Nat × CardRecord)
  revoked     : List (Nat × CardNumber)
  entries     : Nat
  revocations : Nat
  checkValue  : BitVec 16
  repaired    : Bool
  progress    : Option Nat
  update      : Option CardUpdate
  deriving DecidableEq, Repr

/-! ### Hatch controller (03) -/

/-- The station state (R43). -/
inductive StationState where
  | starting
  | ready
  | service
  | outOfService
  | safe
  deriving DecidableEq, Repr

/-- The debounced hatch state (R43, R48). -/
inductive HatchState where
  | unsettled
  | closed
  | opened
  deriving DecidableEq, Repr

/-- The debounced lift state (R43, R49). -/
inductive LiftState where
  | unsettled
  | seated
  | lifted
  deriving DecidableEq, Repr

/-- The hatch phase (R43). -/
inductive HatchPhase where
  | idle
  | window
  | deferred
  | deposit
  | crewOpening
  | forcedOpening
  deriving DecidableEq, Repr

/-- A pending acceptance (R55). A crew acceptance holds no band. -/
structure Acceptance where
  card       : CardNumber
  cls        : CardClass
  band       : Option (BitVec 2)
  unchecked  : Bool
  acceptedAt : Moment
  deriving DecidableEq, Repr

/-- The lock drive phase (R58); PULL-IN with the moment it ends. -/
inductive LockDrive where
  | off
  | pullIn (ends : Moment)
  | hold
  deriving DecidableEq, Repr

/-- The service period (R47): its end and the crew card that began or last re-armed it. -/
structure ServicePeriod where
  ends : Moment
  crew : CardNumber
  deriving DecidableEq, Repr

/-- The repeat-suppression memory (R50): a card number and the time of its last read. -/
structure LastRead where
  card   : CardNumber
  readAt : Moment
  deriving DecidableEq, Repr

/-- The indications of R65. -/
inductive Indication where
  | accept
  | crew
  | deferred
  | redirect (island : Nat)
  | refusal (code : Nat)
  | presentAgain
  | forced
  deriving DecidableEq, Repr

/-- An indication on the panel: `ends` is absent for a standing one, which ends with its window or release (R66). -/
structure Shown where
  indication : Indication
  ends       : Option Moment
  deriving DecidableEq, Repr

/-- The buzzer (R65): silent, a tone with its beginning, its end and the number of tones to follow it, or continuous. -/
inductive Buzzer where
  | silent
  | tone (toFollow : Nat) (begins ends : Moment)
  | continuous
  deriving DecidableEq, Repr

/-- The state of R43. -/
structure Hatch where
  station       : StationState
  conditionsMet : Bool
  hatch         : HatchState
  lift          : LiftState
  phase         : HatchPhase
  window        : Option Moment
  deferred      : Option Moment
  acceptance    : Option Acceptance
  lock          : LockDrive
  stuck         : Bool
  openSince     : Option Moment
  service       : Option ServicePeriod
  lastRead      : Option LastRead
  panel         : Option Shown
  buzzer        : Buzzer
  evaluating    : Option CardNumber
  firstSounding : Bool
  deriving DecidableEq, Repr

/-! ### Tally unit and station clock (04) -/

/-- An entry of the tally table (R69). -/
structure TallyEntry where
  card  : CardNumber
  loc   : Nat
  heard : Nat
  stamp : Nat
  deriving DecidableEq, Repr

/-- The state of R69, and whether the rebuild of R76 has ended. -/
structure Tally where
  entries : List TallyEntry
  loss    : Nat
  touches : Nat
  rebuilt : Bool
  deriving DecidableEq, Repr

/-- The state of R77: the clock is SET when its seconds of day are known; `enteredAt` is absent for START. -/
structure Clock where
  day       : Nat
  seconds   : Option Nat
  enteredAt : Option Moment
  deriving DecidableEq, Repr

/-! ### Nonvolatile store and deposit log (05) -/

/-- The four regions of R87. -/
inductive Region where
  | card
  | revocation
  | log
  | accounting
  deriving DecidableEq, Repr

/-- A row write of the staging queue (R88): a region, a row number and the 16 bytes of the row. -/
structure RowWrite where
  region : Region
  row    : Nat
  bytes  : List Byte
  deriving DecidableEq, Repr

/-- The nonvolatile store (R87, R88): the listed bytes, the torn rows with the number of the tear, the staging queue,
the end of the program under way (BUSY is set while there is one), and how many of the free entries were given to the
deposit log, and to the card table, as they freed and are not yet taken (R89). -/
structure Store where
  cells       : List Host.Cell
  torn        : List (Nat × Nat)
  tears       : Nat
  staging     : List RowWrite
  programEnds : Option Moment
  forLog      : Nat
  forCards    : Nat
  deriving DecidableEq, Repr

/-- The kind of a deposit record with what is particular to it (R91, 12.3); or, for an item of the append list of which no
record will be made, an overflow deposit (R90, R98) that a rollover has counted (R81, log entry 48). -/
inductive RecordBody where
  | deposit (card : CardNumber) (charge : Nat) (unchecked redirected service : Bool)
  | forced
  | emptying (card : CardNumber)
  | unannouncedEmpty
  | dayClose (total count overflow : Nat)
  | overflowSummary (count charge lost : Nat)
  | restart (cause : Byte)
  | overflowDeposit
  deriving DecidableEq, Repr

/-- The content of a record, fixed when the request reaches the log (R91): `time` in units of 2 s, or time-unset. -/
structure LogEntry where
  body     : RecordBody
  day      : Nat
  time     : Option Nat
  fraction : Fraction
  fill     : Option Nat
  deriving DecidableEq, Repr

/-- A record with its sequence number and its CONFIRMED marker (R91). -/
structure LogRecord where
  seq       : Sequence
  entry     : LogEntry
  confirmed : Bool
  deriving DecidableEq, Repr

/-- The accounting content (R92). -/
structure Accounting where
  day            : Nat
  total          : Nat
  count          : Nat
  overflowCount  : Nat
  overflowCharge : Nat
  next           : Sequence
  hatchCycles    : Nat
  pressCycles    : Nat
  rebuilt        : Bool
  deriving DecidableEq, Repr

/-- Where the pair of row writes of an accounting row write stands (R92): none under way, both to be placed, or the
lifetime row to be placed with the content taken when the accounting row was. -/
inductive AccountingPair where
  | none
  | both
  | lifetimeRow (bytes : List Byte)
  deriving DecidableEq, Repr

/-- A harvest in flight (R100). `gap`: GAP is still to be sent. `out`: a telegram of it is in the transmit queue, and
whether that telegram carries LAST. -/
structure Harvest where
  tag       : Nat
  stop      : Option Sequence
  next      : Sequence
  gap       : Bool
  remaining : Nat
  out       : Option Bool
  deriving DecidableEq, Repr

/-- The log phase (R90). -/
inductive LogPhase where
  | scanning
  | opened
  deriving DecidableEq, Repr

/-- The state of R90. `appendList` is in the order the items are worked; `early` holds the requests that wait for the
end of the scan. -/
structure Log where
  phase      : LogPhase
  held       : List LogRecord
  committed  : Option Sequence
  accounting : Accounting
  appendList : List LogEntry
  working    : Option LogEntry
  pair       : AccountingPair
  due        : Bool
  mark       : Option LogRecord
  markAhead  : Nat
  lost       : Nat
  harvest    : Option Harvest
  early      : List (RecordBody × Option Nat)
  deriving DecidableEq, Repr

/-! ### Press unit (06) -/

/-- The press states of R110. -/
inductive PressState where
  | home
  | claiming
  | forward
  | dwell
  | reversing
  | fault
  | inhibited
  | stopped
  deriving DecidableEq, Repr

/-- The reverse kinds of R110. -/
inductive ReverseKind where
  | normal
  | interrupted
  | homing
  | recovery
  deriving DecidableEq, Repr

/-- A direction of drive (R120). -/
inductive Direction where
  | forward
  | reverse
  deriving DecidableEq, Repr

/-- A drive that is on: its direction, its duty in percent, its start and the moment of the next step of the soft
start (R120). -/
structure RunningDrive where
  direction : Direction
  duty      : Nat
  began     : Moment
  stepDue   : Moment
  deriving DecidableEq, Repr

/-- The own claim (R110). -/
inductive OwnClaim where
  | absent
  | queued
  | opened
  deriving DecidableEq, Repr

/-- An entry of the island claim list (R110, R116). -/
structure ClaimEntry where
  address : Nat
  expiry  : Moment
  deriving DecidableEq, Repr

/-- A debounced press switch (R110). -/
inductive SwitchState where
  | unsettled
  | active
  | inactive
  deriving DecidableEq, Repr

/-- The state of R110. `drive` is absent when both outputs are off. -/
structure Press where
  state         : PressState
  kind          : ReverseKind
  paused        : Bool
  drive         : Option RunningDrive
  offSince      : Moment
  lastDirection : Option Direction
  forwardDue    : Option Moment
  dwellEnds     : Option Moment
  reverseUsed   : Nat
  homingFrom    : Option Moment
  claim         : OwnClaim
  claims        : List ClaimEntry
  retry         : Option Moment
  inhibit       : Option Moment
  deposits      : Nat
  homeSwitch    : SwitchState
  endSwitch     : SwitchState
  deriving DecidableEq, Repr

/-! ### Line unit (07) -/

/-- The polarity (R131). -/
inductive Polarity where
  | undetected
  | provisional
  | normal
  | inverted
  deriving DecidableEq, Repr

/-- The owner of a transmit queue entry, which is told its outcome (R138, R141). A request that the relay forwards
names its outstanding entry. `abandoned` is an entry whose owner has dropped it: its outcome reaches no one. -/
inductive Owner where
  | cardTable
  | tallyUnit
  | pressUnit
  | neighbourUnit
  | callUnit
  | depositLog
  | status
  | relayUnit
  | relayRequest (dest tag : Nat)
  | abandoned
  deriving DecidableEq, Repr

/-- An entry of the transmit queue (R138). -/
structure QueueEntry where
  telegram   : Telegram
  cls        : Nat
  age        : Nat
  collisions : Nat
  sending    : Bool
  owner      : Owner
  deriving DecidableEq, Repr

/-- A producer of class-3 telegrams that may wait for a place (R140). -/
inductive Producer where
  | harvest
  | status
  deriving DecidableEq, Repr

/-- The transmitter (R131, R135): DEFERRING with the age of its candidate, the end of the wait and the telegram that the
candidate held when it was taken (R150). -/
inductive Transmitter where
  | idle
  | deferring (age : Nat) (ends : Moment) (taken : Telegram)
  | sending
  deriving DecidableEq, Repr

/-- The receiver (R130): the line is idle and a reception may begin, a reception is going on, or the line is
disregarded up to the next idle. -/
inductive Receiver where
  | listening
  | receiving
  | disregarding
  deriving DecidableEq, Repr

/-- A telegram of the receive buffer, with the moment its reception ended (R145). -/
structure Received where
  telegram : Telegram
  endedAt  : Moment
  deriving DecidableEq, Repr

/-- The six line counters (R146). -/
structure LineCounters where
  checkFailures  : Nat
  overruns       : Nat
  collisionDrops : Nat
  queueDrops     : Nat
  unknownKinds   : Nat
  addressClashes : Nat
  deriving DecidableEq, Repr

/-- The state of R131. -/
structure Line where
  polarity     : Polarity
  silence      : Option Moment
  correction   : Option Moment
  invertedOnly : Nat
  queue        : List QueueEntry
  nextAge      : Nat
  waiting      : List Producer
  transmitter  : Transmitter
  receiver     : Receiver
  buffer       : List Received
  clash        : Bool
  counters     : LineCounters
  random       : BitVec 16
  deriving DecidableEq, Repr

/-! ### Neighbour unit (08) -/

/-- The notice phase (R148). -/
inductive NoticePhase where
  | silent
  | active
  | stopped
  deriving DecidableEq, Repr

/-- The call states (R159). -/
inductive CallState where
  | none
  | pending
  | awaiting
  | scheduled
  | lapsed
  | holdOff
  deriving DecidableEq, Repr

/-- What a FILL NOTICE tells that can change while the station runs (R149, R150). -/
structure NoticeContent where
  fill         : Option Nat
  full         : Bool
  sensorFault  : Bool
  pressFault   : Bool
  outOfService : Bool
  hatchStuck   : Bool
  service      : Bool
  callState    : CallState
  deriving DecidableEq, Repr

/-- An entry of the neighbour view table (R152). -/
structure View where
  address      : Nat
  island       : Nat
  fraction     : Fraction
  position     : Nat
  fill         : Option Nat
  full         : Bool
  sensorFault  : Bool
  outOfService : Bool
  hatchStuck   : Bool
  heardAt      : Moment
  deriving DecidableEq, Repr

/-- An entry of the redirect-expect list (R156). -/
structure Expected where
  card      : CardNumber
  enteredAt : Moment
  deriving DecidableEq, Repr

/-- The state of R148. -/
structure Neighbour where
  phase    : NoticePhase
  last     : Option NoticeContent
  lastAt   : Option Moment
  timer    : Option Moment
  views    : List View
  expected : List Expected
  deriving DecidableEq, Repr

/-! ### Call unit (09) -/

/-- The lead reference of a joined call (R159, R168). -/
structure Lead where
  address : Nat
  tag     : Nat
  deriving DecidableEq, Repr

/-- The state of R159. `stopped` is the unit phase STOPPED. -/
structure Call where
  stopped : Bool
  state   : CallState
  tag     : Option Nat
  sends   : Option Nat
  resend  : Option Moment
  rest    : Option Moment
  round   : Option (Nat × Nat)
  lead    : Option Lead
  lastTag : Nat
  stale   : Nat
  deriving DecidableEq, Repr

/-! ### Relay unit (10) -/

/-- The unit phase of R175. -/
inductive RelayPhase where
  | starting
  | running
  | stopped
  deriving DecidableEq, Repr

/-- The depot receiver (R175, R176): IN FRAME with the characters after the start character and the moment of the
last one. -/
inductive DepotReceiver where
  | hunting
  | inFrame (got : List Byte) (lastAt : Moment)
  deriving DecidableEq, Repr

/-- An outstanding request (R180): in QUEUED `timer` is absent, in TIMING it is the moment the answer timer runs out. -/
structure Outstanding where
  dest  : Nat
  tag   : Nat
  kind  : Kind
  timer : Option Moment
  deriving DecidableEq, Repr

/-- The relay clock when it is SET (R175, R182). -/
structure RelayClock where
  day     : Nat
  seconds : Nat
  deriving DecidableEq, Repr

/-- The state of R175. -/
structure Relay where
  phase         : RelayPhase
  lineToDepot   : List Telegram
  depotToLine   : List Telegram
  transmitting  : Bool
  receiver      : DepotReceiver
  rts           : Bool
  outstanding   : List Outstanding
  clock         : Option RelayClock
  origination   : Option Moment
  checkFailures : Nat
  overruns      : Nat
  drops         : Nat
  noAnswers     : Nat
  deriving DecidableEq, Repr

/-! ### The node -/

/-- One NL84. `now` is its timebase; `fresh` counts the free values taken. -/
structure Node where
  now       : Moment
  fresh     : Nat
  power     : Power
  control   : Control
  sounding  : Sounding
  cards     : Cards
  hatch     : Hatch
  tally     : Tally
  clock     : Clock
  store     : Store
  log       : Log
  press     : Press
  line      : Line
  neighbour : Neighbour
  call      : Call
  relay     : Relay
  deriving DecidableEq, Repr

/-- The machine: the node, and the commands that wait, first in, first out. -/
structure State where
  node    : Node
  pending : List Instr
  deriving DecidableEq, Repr

/-- Why the machine stops with a fault. The spec names no such condition: what it calls a fault (PRESS FAULT, SENSOR
FAULT, UPDATE FAULT) is a state or a telegram of a machine that goes on. So there is no constructor, and no command
faults; this is neither safe nor unsafe, since nothing is left out by it. -/
inductive Fault where
  deriving DecidableEq, Repr

/-- Why a command is refused. -/
inductive Refusal where
  /-- Raised by an arm of `exec` whose command has no meaning yet, and by nothing else; no arm raises it. Safe: it
  claims nothing of the hardware. -/
  | notModelled (mnemonic : String)
  deriving DecidableEq, Repr

/-! ### Start values -/

/-- The configuration values before the block has been read: the spec gives none, and no unit uses one before the
outcome of the read (R185). (DESIGN CHOICE, log entry 9.) -/
def Settings.unread : Settings where
  role := .station
  address := none
  island := 0
  position := 0
  fraction := .residual
  pressFitted := true
  pressLimit := 0
  pressStart := 0
  pressEnd := 0
  pressThreshold := 0
  pingCount := 0
  blanking := 0
  e0 := 0
  f0 := 0
  fullThreshold := 0
  callThreshold := 0
  joinThreshold := 0
  joinRadius := 0
  bagIncrement := 0
  baseRate := 0
  rolloverHour := 4

/-- The start values of R184 for a start of the kind `cause`. -/
def Control.start (cause : Cause) : Control where
  phase := .reading
  settings := .unread
  clamped := false
  cause := cause
  answer := none

/-- The start values of R1: the START request is due at once. -/
def Sounding.start (now : Moment) : Sounding where
  phase := .waiting
  fill := none
  full := false
  sensorFault := false
  failures := 0
  last := none
  median := none
  request := some ⟨now, true, false⟩
  periodic := none
  flight := none

/-- The start values of R26; what the scan will find is empty until it ends (DESIGN CHOICE, log entry 9). -/
def Cards.start : Cards where
  phase := .scanning
  slots := []
  revoked := []
  entries := 0
  revocations := 0
  checkValue := 0
  repaired := false
  progress := none
  update := none

/-- The start values of R43. -/
def Hatch.start : Hatch where
  station := .starting
  conditionsMet := false
  hatch := .unsettled
  lift := .unsettled
  phase := .idle
  window := none
  deferred := none
  acceptance := none
  lock := .off
  stuck := false
  openSince := none
  service := none
  lastRead := none
  panel := none
  buzzer := .silent
  evaluating := none
  firstSounding := false

/-- The start values of R69. -/
def Tally.start : Tally where
  entries := []
  loss := 0
  touches := 0
  rebuilt := false

/-- The start values of R77; the day is known from the end of the log's scan (DESIGN CHOICE, log entry 9). -/
def Clock.start : Clock where
  day := 0
  seconds := none
  enteredAt := none

/-- The initial accounting content of R87. It also stands before the scan of a start has ended (DESIGN CHOICE, log entry 9). -/
def Accounting.initial : Accounting where
  day := 0
  total := 0
  count := 0
  overflowCount := 0
  overflowCharge := 0
  next := 0
  hatchCycles := 0
  pressCycles := 0
  rebuilt := false

/-- The store as the part leaves the factory (R87): every row is sixteen zero bytes (R193), so nothing is listed. -/
def Store.factory : Store where
  cells := []
  torn := []
  tears := 0
  staging := []
  programEnds := none
  forLog := 0
  forCards := 0

/-- The start values of R90. -/
def Log.start : Log where
  phase := .scanning
  held := []
  committed := none
  accounting := .initial
  appendList := []
  working := none
  pair := .none
  due := false
  mark := none
  markAhead := 0
  lost := 0
  harvest := none
  early := []

/-- The start values of R110, for a start at `now`. -/
def Press.start (now : Moment) : Press where
  state := .reversing
  kind := .homing
  paused := false
  drive := none
  offSince := now
  lastDirection := none
  forwardDue := none
  dwellEnds := none
  reverseUsed := 0
  homingFrom := none
  claim := .absent
  claims := []
  retry := none
  inhibit := none
  deposits := 0
  homeSwitch := .unsettled
  endSwitch := .unsettled

/-- All six line counters at 0 (R146). -/
def LineCounters.zero : LineCounters where
  checkFailures := 0
  overruns := 0
  collisionDrops := 0
  queueDrops := 0
  unknownKinds := 0
  addressClashes := 0

/-- The start values of R131. The register is loaded with the address when the read has given it; before that no draw
is made, and it holds 1 (DESIGN CHOICE, log entry 9). The receiver listens (DESIGN CHOICE, log entry 11). -/
def Line.start : Line where
  polarity := .undetected
  silence := none
  correction := none
  invertedOnly := 0
  queue := []
  nextAge := 0
  waiting := []
  transmitter := .idle
  receiver := .listening
  buffer := []
  clash := false
  counters := .zero
  random := 1

/-- The start values of R148. -/
def Neighbour.start : Neighbour where
  phase := .silent
  last := none
  lastAt := none
  timer := none
  views := []
  expected := []

/-- The start values of R159; the last tag used is known from the end of the log's scan (DESIGN CHOICE, log entry 9). -/
def Call.start : Call where
  stopped := false
  state := .none
  tag := none
  sends := none
  resend := none
  rest := none
  round := none
  lead := none
  lastTag := 0
  stale := 0

/-- The start values of R175. -/
def Relay.start : Relay where
  phase := .starting
  lineToDepot := []
  depotToLine := []
  transmitting := false
  receiver := .hunting
  rts := false
  outstanding := []
  clock := none
  origination := none
  checkFailures := 0
  overruns := 0
  drops := 0
  noAnswers := 0

/-- A new part right after its first power-on: every unit at its start value, the read of the configuration not yet
ended, the restart cause POWER (R188) and the store as the factory leaves it (R87). -/
def Node.reset : Node where
  now := 0
  fresh := 0
  power := ⟨true, false, false⟩
  control := .start .power
  sounding := .start 0
  cards := .start
  hatch := .start
  tally := .start
  clock := .start
  store := .factory
  log := .start
  press := .start 0
  line := .start
  neighbour := .start
  call := .start
  relay := .start

/-- The machine right after reset: a new part's power-on start has begun, and no command waits. -/
def State.reset : State := ⟨Node.reset, []⟩

end Sys2Proof.Machine
end

