-- ==== Sys2Proof/Machine/Timing.lean ====
section
/-! DEFINITION. The durations of the spec, in microseconds of the station's own timebase, and the capacities of its
collections. -/

namespace Sys2Proof.Machine

/-- One millisecond. -/
def ms : Nat := 1000

/-- One second. -/
def sec : Nat := 1000000

/-- One minute. -/
def minute : Nat := 60 * sec

/-- One hour. -/
def hour : Nat := 60 * minute

/-- The burst of a ping (R5). -/
def burstLength : Nat := 200

/-- A ping slot (R6). -/
def pingSlotLength : Nat := 60 * ms

/-- The last echo time that counts (R5), in microseconds. -/
def longestEcho : Nat := 24000

/-- The periodic timer (R20). -/
def periodicLength : Nat := 30 * minute

/-- The sounding after a deposit and after an abandonment (R19). -/
def soundingDelay : Nat := 3 * sec

/-- The sounding after a press cycle (R19). -/
def cycleSoundingDelay : Nat := 5 * sec

/-- The sounding after a seat (R19). -/
def seatSoundingDelay : Nat := 20 * sec

/-- The repeat of an UNSTEADY sounding (R12). -/
def repeatSoundingDelay : Nat := 30 * sec

/-- The release window (R57). -/
def windowLength : Nat := 10 * sec

/-- The deferred release (R59). -/
def deferredLength : Nat := 20 * sec

/-- The pull-in of the lock (R58). -/
def pullInLength : Nat := 300 * ms

/-- The service period (R47). -/
def serviceLength : Nat := 15 * minute

/-- The repeat suppression (R50). -/
def repeatSuppression : Nat := 2 * sec

/-- An indication that is not standing (R65). -/
def indicationLength : Nat := 4 * sec

/-- A tone of the buzzer (R65). -/
def toneLength : Nat := 150 * ms

/-- The open timer (R64). -/
def stuckLength : Nat := 90 * sec

/-- How long a day must have been in force for a rollover by hour (R78). -/
def dayHold : Nat := 12 * hour

/-- The program of a row (R88). -/
def programLength : Nat := 4 * ms

/-- The duration a station's own claim carries, in seconds (R114). -/
def claimSeconds : Nat := 50

/-- What an entry of the island claim list outlasts its claimed duration by (R116). -/
def claimGrace : Nat := 5 * sec

/-- The inhibit timer (R118). -/
def inhibitLength : Nat := 10 * minute

/-- A step of the soft start (R120). -/
def softStartStep : Nat := 100 * ms

/-- The dead interval between the two directions (R120). -/
def deadInterval : Nat := 250 * ms

/-- The limit of forward drive (R121). -/
def forwardLimit : Nat := 20 * sec

/-- The dwell of a stroke that runs its course (R121). -/
def dwellLength : Nat := 2 * sec

/-- The limit of reverse drive (R124). -/
def reverseLimit : Nat := 25 * sec

/-- The silence timer (R133). -/
def silenceLength : Nat := 5 * sec

/-- The correction timer (R134). -/
def correctionLength : Nat := 60 * sec

/-- A slot of the deferral wait (R135). -/
def deferSlot : Nat := ms

/-- The notice timer (R150). -/
def noticeLength : Nat := 60 * minute

/-- How long a view is fresh (R153). -/
def freshLength : Nat := 3 * hour

/-- How long a view is held (R153). -/
def viewLength : Nat := 6 * hour

/-- The life of an expected card (R157). -/
def expectLength : Nat := 15 * minute

/-- The resend timer (R162). -/
def resendLength : Nat := 10 * minute

/-- The rest of a LAPSED call (R163). -/
def lapseLength : Nat := 2 * hour

/-- The rest of a declined call (R164). -/
def holdOffLength : Nat := 4 * hour

/-- The longest pause between two characters of a depot frame (R176). -/
def framePause : Nat := 20 * ms

/-- The answer timer of an outstanding request (R180). -/
def answerLength : Nat := 5 * sec

/-- The origination timer (R182). -/
def originationLength : Nat := 10 * minute

/-- Seconds of a day (R78). -/
def daySeconds : Nat := 86400

/-- The last day number (R77). -/
def lastDay : Nat := 65535

/-- The top of a 16-bit saturating counter. -/
def top16 : Nat := 65535

/-- The top of a 24-bit saturating total (R84). -/
def top24 : Nat := 16777215

/-- The maximum of the touch counter (R69). -/
def lastTouch : Nat := 4294967295

/-- Entries of the tally table (R69). -/
def tallyCapacity : Nat := 384

/-- Buckets of the card table (R27). -/
def bucketCount : Nat := 512

/-- Rows of the card region and of the log region (R87). -/
def cardRows : Nat := 1024

/-- Rows of the revocation region (R87). -/
def revocationRows : Nat := 64

/-- Positions of the revocation list (R35). -/
def revocationPositions : Nat := 128

/-- Records the log holds (R90). -/
def logCapacity : Nat := 1024

/-- Entries of the staging queue (R88). -/
def stagingCapacity : Nat := 4

/-- Places of the event list (R94). -/
def eventCapacity : Nat := 3

/-- Entries of the island claim list (R116). -/
def claimCapacity : Nat := 8

/-- Entries of the transmit queue (R138). -/
def queueCapacity : Nat := 6

/-- Places of the receive buffer (R145). -/
def bufferCapacity : Nat := 4

/-- Entries of the neighbour view table (R152). -/
def viewCapacity : Nat := 32

/-- Entries of the redirect-expect list (R156). -/
def expectCapacity : Nat := 16

/-- Telegrams of each relay queue (R175). -/
def relayCapacity : Nat := 16

/-- Entries of the outstanding request table (R180). -/
def outstandingCapacity : Nat := 8

/-- The destination ALL (R192). -/
def toAll : Nat := 0

/-- The destination RELAY (R192). -/
def toRelay : Nat := 250

end Sys2Proof.Machine
end

