-- ==== Sys2Proof/Machine/Layouts.lean ====
section
/-! DEFINITION. The byte layouts of chapter 12: the two check values, numbers least significant byte first, the codes
of the enumerated values, telegrams as characters, and the lengths and classes of the kinds (R192). -/

namespace Sys2Proof.Machine

/-! ### Check values -/

/-- One bit of a CRC-16 with polynomial x^16 + x^12 + x^5 + 1, most significant bit first (R192). -/
def crc16Bit (r : BitVec 16) : BitVec 16 := if r.msb then (r <<< 1) ^^^ 0x1021#16 else r <<< 1

/-- One byte into the CRC-16 register (R192). -/
def crc16Byte (r : BitVec 16) (b : Byte) : BitVec 16 :=
  crc16Bit (crc16Bit (crc16Bit (crc16Bit (crc16Bit (crc16Bit (crc16Bit (crc16Bit
    (r ^^^ ((b.setWidth 16) <<< 8)))))))))

/-- The CRC-16 of R192: the register starts at 65,535 and is not inverted at the end. -/
def crc16 (bytes : List Byte) : BitVec 16 := bytes.foldl crc16Byte 0xFFFF#16

/-- One bit of a CRC-8 with polynomial x^8 + x^2 + x + 1, most significant bit first (R193). -/
def crc8Bit (r : Byte) : Byte := if r.msb then (r <<< 1) ^^^ 0x07#8 else r <<< 1

/-- One byte into the CRC-8 register (R193). -/
def crc8Byte (r b : Byte) : Byte :=
  crc8Bit (crc8Bit (crc8Bit (crc8Bit (crc8Bit (crc8Bit (crc8Bit (crc8Bit (r ^^^ b))))))))

/-- The row check of R193: the register starts at 0 and is not inverted at the end. -/
def crc8 (bytes : List Byte) : Byte := bytes.foldl crc8Byte 0#8

/-- A check value as it is carried: high byte first (12, R192). -/
def checkBytes (c : BitVec 16) : List Byte := [(c >>> 8).setWidth 8, c.setWidth 8]

/-! ### Numbers -/

/-- A number in `n` bytes, least significant byte first (chapter 12). -/
def bytesOf : Nat → Nat → List Byte
  | 0, _ => []
  | n + 1, x => BitVec.ofNat 8 x :: bytesOf n (x / 256)

/-- The number that bytes carry, least significant byte first (chapter 12). -/
def numberOf : List Byte → Nat
  | [] => 0
  | b :: bs => b.toNat + 256 * numberOf bs

/-- The number in the `n` bytes from place `at_`. -/
def field (bytes : List Byte) (at_ n : Nat) : Nat := numberOf ((bytes.drop at_).take n)

/-- One bit as a number. -/
def bit (b : Bool) (place : Nat) : Nat := if b then 2 ^ place else 0

/-! ### Codes -/

/-- The code of a fraction (chapter 12). -/
def Fraction.code : Fraction → Nat
  | .residual => 0
  | .paper => 1
  | .glass => 2
  | .packaging => 3
  | .organic => 4

/-- The fraction of a code; codes above 4 are undefined (R194). -/
def Fraction.ofCode : Nat → Option Fraction
  | 0 => some .residual
  | 1 => some .paper
  | 2 => some .glass
  | 3 => some .packaging
  | 4 => some .organic
  | _ => none

/-- The code of a card class: 0 to 3 in R25's order (12.1). -/
def CardClass.code : CardClass → Nat
  | .resident => 0
  | .commercial => 1
  | .crew => 2
  | .test => 3

/-- The class of a code; 4 to 7 are out of range (R193). -/
def CardClass.ofCode : Nat → Option CardClass
  | 0 => some .resident
  | 1 => some .commercial
  | 2 => some .crew
  | 3 => some .test
  | _ => none

/-- The code of a call state (chapter 12). -/
def CallState.code : CallState → Nat
  | .none => 0
  | .pending => 1
  | .awaiting => 2
  | .scheduled => 3
  | .lapsed => 4
  | .holdOff => 5

/-- The code of a station state (chapter 12). SAFE has none, since a SAFE station answers no status request; it is
given the code above the others, which reaches nothing. -/
def StationState.code : StationState → Nat
  | .starting => 0
  | .ready => 1
  | .service => 2
  | .outOfService => 3
  | .safe => 4

/-- The code of a polarity (chapter 12). -/
def Polarity.code : Polarity → Nat
  | .undetected => 0
  | .provisional => 1
  | .normal => 2
  | .inverted => 3

/-- The code of a restart cause (chapter 12). -/
def Cause.code : Cause → Nat
  | .power => 0
  | .pin => 1
  | .telegram => 2

/-- The code of the last sounding result (chapter 12). -/
def resultCode : Option SoundingResult → Nat
  | none => 0
  | some .accepted => 1
  | some .unsteady => 2
  | some .failed => 3

/-- A fill value in telegrams: 65,535 unknown (chapter 12). -/
def fillCode (fill : Option Nat) : Nat := fill.getD 65535

/-! ### Telegram kinds -/

/-- The kind code (R192). -/
def Kind.code : Kind → Nat
  | .fillNotice => 1
  | .tallyNotice => 2
  | .redirectNotice => 3
  | .pressClaim => 4
  | .pressRelease => 5
  | .call => 6
  | .callJoin => 7
  | .callClosed => 8
  | .callAnswer => 9
  | .time => 10
  | .statusRequest => 11
  | .statusAnswer => 12
  | .harvestRequest => 13
  | .harvestAnswer => 14
  | .harvestConfirm => 15
  | .cardUpdate => 16
  | .updateFault => 17
  | .restart => 18
  | .noAnswer => 19

/-- The kind of a code; 0 and 20 and above are unknown (R192). -/
def Kind.ofCode : Nat → Option Kind
  | 1 => some .fillNotice
  | 2 => some .tallyNotice
  | 3 => some .redirectNotice
  | 4 => some .pressClaim
  | 5 => some .pressRelease
  | 6 => some .call
  | 7 => some .callJoin
  | 8 => some .callClosed
  | 9 => some .callAnswer
  | 10 => some .time
  | 11 => some .statusRequest
  | 12 => some .statusAnswer
  | 13 => some .harvestRequest
  | 14 => some .harvestAnswer
  | 15 => some .harvestConfirm
  | 16 => some .cardUpdate
  | 17 => some .updateFault
  | 18 => some .restart
  | 19 => some .noAnswer
  | _ => none

/-- The access class of a kind (the class column of R192). NO ANSWER never goes on the line and has none; it is given
class 3, which reaches nothing. -/
def Kind.accessClass : Kind → Nat
  | .fillNotice => 2
  | .tallyNotice => 2
  | .redirectNotice => 2
  | .pressClaim => 0
  | .pressRelease => 0
  | .call => 1
  | .callJoin => 1
  | .callClosed => 1
  | .callAnswer => 1
  | .time => 1
  | .statusRequest => 1
  | .statusAnswer => 3
  | .harvestRequest => 1
  | .harvestAnswer => 3
  | .harvestConfirm => 1
  | .cardUpdate => 3
  | .updateFault => 1
  | .restart => 1
  | .noAnswer => 3

/-- The payload lengths that the layout of a kind allows (the lengths column of R192). -/
def Kind.lengthAllowed (k : Kind) (n : Nat) : Bool :=
  match k with
  | .fillNotice => n == 7
  | .tallyNotice => n == 7
  | .redirectNotice => n == 5
  | .pressClaim => n == 2
  | .pressRelease => n == 1
  | .call => n == 7
  | .callJoin => n == 8
  | .callClosed => n == 2
  | .callAnswer => n == 6
  | .time => n == 5
  | .statusRequest => n == 1
  | .statusAnswer => n == 31 || n == 40 || n == 33
  | .harvestRequest => n == 5
  | .harvestAnswer => n == 5 || n == 18 || n == 31 || n == 44
  | .harvestConfirm => n == 3
  | .cardUpdate => decide (1 ≤ n) && decide (n ≤ 27)
  | .updateFault => n == 6
  | .restart => n == 0
  | .noAnswer => n == 3

/-! ### Telegrams as characters -/

/-- The header and payload of a telegram, in sending order (R130, R192). -/
def Telegram.body (t : Telegram) : List Byte :=
  [BitVec.ofNat 8 t.kind.code, BitVec.ofNat 8 t.sender, BitVec.ofNat 8 t.island, BitVec.ofNat 8 t.dest,
    BitVec.ofNat 8 t.payload.length] ++ t.payload

/-- The characters of a telegram: header, payload and the two check characters (R130, R192). -/
def Telegram.chars (t : Telegram) : List Byte := t.body ++ checkBytes (crc16 t.body)

/-- Whether the two check characters of a whole telegram equal the check value of the characters before them (R142,
first check). -/
def checkAgrees (chars : List Byte) : Bool :=
  chars.drop (chars.length - 2) == checkBytes (crc16 (chars.take (chars.length - 2)))

/-- A depot frame: start character 165, the telegram's byte count, the telegram, end character 90 (R192, R177). -/
def depotFrameOf (t : Telegram) : List Byte :=
  [165#8, BitVec.ofNat 8 t.chars.length] ++ t.chars ++ [90#8]

end Sys2Proof.Machine
end

