-- ==== Sys2Proof/Machine/Records.lean ====
section
/-! DEFINITION. The rows of the nonvolatile store (R193): card rows, revocation rows, log rows, the accounting row and
the lifetime row, written and read. -/

namespace Sys2Proof.Machine

/-- A row: its fifteen content bytes and the row check (R193). -/
def withRowCheck (content : List Byte) : List Byte := content ++ [crc8 content]

/-- Sixteen zero bytes: an empty row of every region (R193). -/
def emptyRow : List Byte := List.replicate 16 0#8

/-- Whether a row passes its check (R87, R193). Sixteen zero bytes pass it. -/
def rowCheckPasses (row : List Byte) : Bool := row == emptyRow || row == withRowCheck (row.take 15)

/-! ### Card rows -/

/-- The seven bytes of an occupied slot (12.3). -/
def slotBytes (r : CardRecord) : List Byte :=
  bytesOf 4 r.number.toNat ++
    [BitVec.ofNat 8 (r.cls.code + bit (r.status == .suspended) 3 + 128), r.rights.setWidth 8,
      BitVec.ofNat 8 (r.allowance.toNat + 16 * r.band.toNat)]

/-- The seven bytes of a slot; a free one is seven zero bytes (12.3). -/
def slotContent : Option CardRecord → List Byte
  | none => List.replicate 7 0#8
  | some r => slotBytes r

/-- The CRC-16 of a record, over its seven slot bytes (R38, 12.3). -/
def recordCrc (r : CardRecord) : BitVec 16 := crc16 (slotBytes r)

/-- A card row: two slots, a zero byte and the row check (R27, 12.3). -/
def cardRow (a b : Option CardRecord) : List Byte :=
  withRowCheck (slotContent a ++ slotContent b ++ [0#8])

/-- What a slot of a check-passing row is taken as (R40): free, occupied, or a record with a field out of range. -/
inductive SlotRead where
  | free
  | occupied (r : CardRecord)
  | outOfRange
  deriving DecidableEq, Repr

/-- A slot as its seven bytes say (R40, 12.3). Bits 4 to 6 of byte 4, which 12.3 writes 0, and the other bytes of a slot that
is not occupied are disregarded (DESIGN CHOICE, log entry 41). -/
def readSlot (bytes : List Byte) : SlotRead :=
  let flags := field bytes 4 1
  let rights := field bytes 5 1
  let tariff := field bytes 6 1
  if flags < 128 then .free
  else
    match CardClass.ofCode (flags % 8) with
    | none => .outOfRange
    | some cls =>
      if 32 ≤ rights ∨ 64 ≤ tariff then .outOfRange
      else .occupied
        { number := BitVec.ofNat 32 (field bytes 0 4)
          cls := cls
          rights := BitVec.ofNat 5 rights
          allowance := BitVec.ofNat 4 (tariff % 16)
          band := BitVec.ofNat 2 (tariff / 16)
          status := if flags / 8 % 2 = 1 then .suspended else .valid }

/-! ### Revocation rows -/

/-- The five bytes of a position (12.3). -/
def positionBytes : Option CardNumber → List Byte
  | none => List.replicate 5 0#8
  | some c => bytesOf 4 c.toNat ++ [1#8]

/-- A revocation row: two positions, five zero bytes and the row check (R35, 12.3). -/
def revocationRow (a b : Option CardNumber) : List Byte :=
  withRowCheck (positionBytes a ++ positionBytes b ++ List.replicate 5 0#8)

/-- A position as its five bytes say: held when bit 0 of the marker is set (12.3). The marker's other bits, which 12.3 writes
0, and the number of a position that is not held are disregarded (DESIGN CHOICE, log entry 41). -/
def readPosition (bytes : List Byte) : Option CardNumber :=
  if field bytes 4 1 % 2 = 1 then some (BitVec.ofNat 32 (field bytes 0 4)) else none

/-! ### Log rows -/

/-- The kind code of a record: 1 to 7 in R91's order (12.3). An overflow deposit, of which no record is made (R98), has the code
that stands for no record. -/
def RecordBody.code : RecordBody → Nat
  | .deposit .. => 1
  | .forced => 2
  | .emptying _ => 3
  | .unannouncedEmpty => 4
  | .dayClose .. => 5
  | .overflowSummary .. => 6
  | .restart _ => 7
  | .overflowDeposit => 0

/-- The kind-specific area, bytes 8 to 14 (12.3). Bits 3 to 7 of a DEPOSIT's flags byte, to which 12.3 gives no flag, are 0
(DESIGN CHOICE, log entry 52). -/
def RecordBody.area : RecordBody → List Byte
  | .deposit card charge unchecked redirected service =>
    bytesOf 4 card.toNat ++
      [BitVec.ofNat 8 charge, BitVec.ofNat 8 (bit unchecked 0 + bit redirected 1 + bit service 2), 0#8]
  | .forced => List.replicate 7 0#8
  | .emptying card => bytesOf 4 card.toNat ++ List.replicate 3 0#8
  | .unannouncedEmpty => List.replicate 7 0#8
  | .dayClose total count overflow => bytesOf 3 total ++ bytesOf 2 count ++ bytesOf 2 overflow
  | .overflowSummary count charge lost => bytesOf 2 count ++ bytesOf 3 charge ++ bytesOf 2 lost
  | .restart cause => cause :: List.replicate 6 0#8
  | .overflowDeposit => List.replicate 7 0#8

/-- Bytes 2 to 14 of a log row, which are the record of a HARVEST ANSWER (12.3). -/
def LogEntry.bytes (e : LogEntry) : List Byte :=
  bytesOf 2 (e.fill.getD 1023 + 1024 * e.body.code + 8192 * e.fraction.code) ++ bytesOf 2 e.day ++
    bytesOf 2 (e.time.getD 65535) ++ e.body.area

/-- The log row of a record: floor(s / 1,024) with the CONFIRMED marker, the record, the row check (12.3). -/
def logRow (r : LogRecord) : List Byte :=
  withRowCheck (bytesOf 2 (r.seq.toNat / 1024 + bit r.confirmed 14) ++ r.entry.bytes)

/-- The kind of a stored record, or none for a kind code that stands for no record (12.3). The zeros of the kind-specific area,
and the bits of a DEPOSIT's flags byte without a flag, are disregarded (DESIGN CHOICE, log entries 41 and 52). -/
def readBody (code : Nat) (area : List Byte) : Option RecordBody :=
  match code with
  | 1 =>
    let flags := field area 5 1
    some (.deposit (BitVec.ofNat 32 (field area 0 4)) (field area 4 1) (flags % 2 = 1) (flags / 2 % 2 = 1)
      (flags / 4 % 2 = 1))
  | 2 => some .forced
  | 3 => some (.emptying (BitVec.ofNat 32 (field area 0 4)))
  | 4 => some .unannouncedEmpty
  | 5 => some (.dayClose (field area 0 3) (field area 3 2) (field area 5 2))
  | 6 => some (.overflowSummary (field area 0 2) (field area 2 3) (field area 5 2))
  | 7 => some (.restart (BitVec.ofNat 8 (field area 0 1)))
  | _ => none

/-- The record that a check-passing log row holds for the scan (R105, 12.3): none for kind 0, a fraction code above 4
or a fill code from 1,001 to 1,022. Bit 15 of the first word, which 12.3 writes 0, is disregarded (DESIGN CHOICE, log
entry 41). -/
def readLogRow (row : Nat) (bytes : List Byte) : Option LogRecord :=
  let head := field bytes 0 2
  let mid := field bytes 2 2
  let fill := mid % 1024
  let time := field bytes 6 2
  match readBody (mid / 1024 % 8) ((bytes.drop 8).take 7), Fraction.ofCode (mid / 8192) with
  | some body, some fraction =>
    if 1000 < fill ∧ fill < 1023 then none
    else some
      { seq := BitVec.ofNat 24 (head % 16384 * 1024 + row)
        entry :=
          { body := body
            day := field bytes 4 2
            time := if time = 65535 then none else some time
            fraction := fraction
            fill := if fill = 1023 then none else some fill }
        confirmed := head / 16384 % 2 = 1 }
  | _, _ => none

/-- The sequence number a log row's bytes carry, for the row `row` (12.3). -/
def rowSequence (row : Nat) (bytes : List Byte) : Sequence := BitVec.ofNat 24 (field bytes 0 2 % 16384 * 1024 + row)

/-- Whether a log row's bytes carry the CONFIRMED marker (12.3). -/
def rowConfirmed (bytes : List Byte) : Bool := field bytes 0 2 / 16384 % 2 = 1

/-! ### Accounting rows -/

/-- The accounting row, row 0 of its region (12.3). -/
def accountingRow (a : Accounting) : List Byte :=
  withRowCheck (bytesOf 2 a.day ++ bytesOf 3 a.total ++ bytesOf 2 a.count ++ bytesOf 2 a.overflowCount ++
    bytesOf 3 a.overflowCharge ++ bytesOf 3 a.next.toNat)

/-- The lifetime row, row 1 of its region (12.3). -/
def lifetimeRow (a : Accounting) : List Byte :=
  withRowCheck (bytesOf 3 a.hatchCycles ++ bytesOf 2 a.pressCycles ++ [BitVec.ofNat 8 (bit a.rebuilt 0)] ++
    List.replicate 9 0#8)

/-- The content with what the accounting row holds (12.3). -/
def readAccountingRow (bytes : List Byte) (a : Accounting) : Accounting :=
  { a with
    day := field bytes 0 2
    total := field bytes 2 3
    count := field bytes 5 2
    overflowCount := field bytes 7 2
    overflowCharge := field bytes 9 3
    next := BitVec.ofNat 24 (field bytes 12 3) }

/-- The content with what the lifetime row holds (12.3). Bits 1 to 7 of its flags byte, which 12.3 writes 0, are disregarded
(DESIGN CHOICE, log entry 41). -/
def readLifetimeRow (bytes : List Byte) (a : Accounting) : Accounting :=
  { a with
    hatchCycles := field bytes 0 3
    pressCycles := field bytes 3 2
    rebuilt := decide (field bytes 5 1 % 2 = 1) }

end Sys2Proof.Machine
end

