-- ==== Sys2Proof/Machine/Operands.lean ====
section
/-! DEFINITION. What the commands' operands say: a reception as characters, a telegram as bytes, the operations of a
CARD UPDATE, the configuration block, the temperature reading. -/

namespace Sys2Proof.Machine

/-! ### Receptions and telegrams -/

/-- The telegram's characters in a reception, or none when the reception is incomplete (R130): the length character
gives a value above 48, the line falls idle before the last character, or a character of it has no stop bit. -/
def framedReception (chars : List HeardChar) : Option (List Byte) :=
  match chars.drop 4 with
  | [] => none
  | lengthChar :: _ =>
    let total := lengthChar.value.toNat + 7
    if 48 < lengthChar.value.toNat ∨ chars.length < total then none
    else if (chars.take total).all (·.stop) then some ((chars.take total).map (·.value)) else none

/-- Whether a reception passes the check value in this sense (R142, first check): the framed telegram if it does. -/
def goodReception (chars : List HeardChar) : Option (List Byte) :=
  match framedReception chars with
  | none => none
  | some bytes => if checkAgrees bytes then some bytes else none

/-- Whether an address may send (R142). -/
def senderAllowed (a : Nat) : Bool := decide (1 ≤ a) && decide (a ≤ 239)

/-- Whether an address may be a destination: ALL, a station, or RELAY (R142). -/
def destAllowed (a : Nat) : Bool := decide (a ≤ 239) || a == toRelay

/-- The checks of R142 on kind, payload length and addresses: the telegram that passes them. NO ANSWER counts as
unknown here, and so does a depot frame whose length is not its payload length + 7 (DESIGN CHOICE, log entry 44). -/
def readTelegram (bytes : List Byte) : Option Telegram :=
  match Kind.ofCode (field bytes 0 1) with
  | none => none
  | some kind =>
    let len := field bytes 4 1
    let sender := field bytes 1 1
    let dest := field bytes 3 1
    if kind != .noAnswer && kind.lengthAllowed len && bytes.length == len + 7 && senderAllowed sender &&
        destAllowed dest then
      some { kind := kind, sender := sender, island := field bytes 2 1, dest := dest, payload := (bytes.drop 5).take len }
    else none

/-! ### Card update operations -/

/-- The operations of a CARD UPDATE payload (12.1), each with its index, at most `k` more. An operation of unknown
kind, and one that the end of the payload cuts short, is `unknown`, and nothing after it is read (R31). -/
def readOps : Nat → Nat → List Byte → List (Nat × CardOp)
  | 0, _, _ => []
  | k + 1, index, bytes =>
    match bytes with
    | [] => []
    | code :: rest =>
      let number := BitVec.ofNat 32 (field rest 0 4)
      match code.toNat with
      | 1 =>
        if rest.length < 8 then [(index, .unknown)]
        else (index, .add number (BitVec.ofNat 8 (field rest 4 1)) (BitVec.ofNat 8 (field rest 5 1))
          (BitVec.ofNat 8 (field rest 6 1)) (BitVec.ofNat 8 (field rest 7 1))) :: readOps k (index + 1) (rest.drop 8)
      | 2 => if rest.length < 4 then [(index, .unknown)] else (index, .remove number) :: readOps k (index + 1) (rest.drop 4)
      | 3 => (index, .clear) :: readOps k (index + 1) rest
      | 4 => if rest.length < 4 then [(index, .unknown)] else (index, .revokeAdd number) :: readOps k (index + 1) (rest.drop 4)
      | 5 => if rest.length < 4 then [(index, .unknown)] else (index, .revokeRemove number) :: readOps k (index + 1) (rest.drop 4)
      | 6 => (index, .revokeClear) :: readOps k (index + 1) rest
      | _ => [(index, .unknown)]

/-- The record of an ADD, or none when it is malformed (R31): a class that is none of the four, rights naming a
fraction that is none of the five, a band above 3, or a status that is neither VALID nor SUSPENDED. -/
def addRecord (number : CardNumber) (cls status rights tariff : Byte) : Option CardRecord :=
  match CardClass.ofCode cls.toNat with
  | none => none
  | some c =>
    if 32 ≤ rights.toNat ∨ 64 ≤ tariff.toNat ∨ 1 < status.toNat then none
    else some
      { number := number
        cls := c
        rights := rights.setWidth 5
        allowance := BitVec.ofNat 4 (tariff.toNat % 16)
        band := BitVec.ofNat 2 (tariff.toNat / 16)
        status := if status.toNat = 1 then .suspended else .valid }

/-! ### The configuration block -/

/-- The role of a code (R186). -/
def Role.ofCode : Nat → Option Role
  | 0 => some .station
  | 1 => some .relay
  | _ => none

/-- Press fitted, of a code (R194). -/
def fittedOfCode : Nat → Option Bool
  | 0 => some false
  | 1 => some true
  | _ => none

/-- The ping count brought to 3, 5 or 7 (R186). -/
def clampPings (n : Nat) : Nat := if n ≤ 3 then 3 else if n ≤ 5 then 5 else 7

/-- A station's fields as they stand in the block, before any clamping (R194). -/
def rawStation (block : List Byte) (fraction : Fraction) (fitted : Bool) : Settings where
  role := .station
  address := some (field block 1 1)
  island := field block 2 1
  position := field block 3 2
  fraction := fraction
  pressFitted := fitted
  pressLimit := field block 7 1
  pressStart := field block 8 1
  pressEnd := field block 9 1
  pressThreshold := field block 10 2
  pingCount := field block 12 1
  blanking := field block 13 2
  e0 := field block 15 2
  f0 := field block 17 2
  fullThreshold := field block 19 2
  callThreshold := field block 21 2
  joinThreshold := field block 23 2
  joinRadius := field block 25 1
  bagIncrement := field block 26 1
  baseRate := field block 27 1
  rolloverHour := field block 28 1

/-- The clamping of R186, in the order of its table: a range that depends on another field is that field's clamped
value's. -/
def Settings.clamped (s : Settings) : Settings :=
  let e0 := clamp 500 4000 s.e0
  let full := clamp 800 990 s.fullThreshold
  let call := clamp 500 (min 950 (full - 50)) s.callThreshold
  { s with
    address := s.address.map (clamp 1 239)
    island := max 1 s.island
    position := min 4095 s.position
    pressLimit := clamp 1 3 s.pressLimit
    pressStart := min 23 s.pressStart
    pressEnd := min 23 s.pressEnd
    pressThreshold := clamp 300 900 s.pressThreshold
    pingCount := clampPings s.pingCount
    blanking := clamp 600 3000 s.blanking
    e0 := e0
    f0 := clamp 100 (e0 - 200) s.f0
    fullThreshold := full
    callThreshold := call
    joinThreshold := clamp 300 call s.joinThreshold
    bagIncrement := min 50 s.bagIncrement
    rolloverHour := min 23 s.rolloverHour }

/-- A relay's fields: role, address, island and position; the others are disregarded (R186). -/
def rawRelay (block : List Byte) : Settings :=
  { Settings.unread with
    role := .relay
    address := some (field block 1 1)
    island := field block 2 1
    position := field block 3 2 }

/-- The clamping of the four fields a relay uses (R186). -/
def Settings.clampedRelay (s : Settings) : Settings :=
  { s with address := s.address.map (clamp 1 239), island := max 1 s.island, position := min 4095 s.position }

/-- The values of SAFE with the block unread (R187). -/
def safeUnread : Settings := { Settings.unread with rolloverHour := 4 }

/-- The values of SAFE with the block read (R187, first column). -/
def safeRead (block : List Byte) : Settings :=
  { Settings.unread with
    role := (Role.ofCode (field block 0 1)).getD .station
    address := if senderAllowed (field block 1 1) then some (field block 1 1) else none
    fraction := (Fraction.ofCode (field block 5 1)).getD .residual
    pressFitted := (fittedOfCode (field block 6 1)).getD true
    rolloverHour := min 23 (field block 28 1) }

/-- The outcome of the read (R185, R186): the configuration is good, with its values and whether one was clamped, or
failed, with the values of R187. -/
inductive ReadOutcome where
  | good (settings : Settings) (clamped : Bool)
  | failed (settings : Settings)
  deriving DecidableEq, Repr

/-- The read of the configuration block (R185, R186): cut off before the last of its 31 bytes, read whole with a check
value that differs, or read whole and checked field by field. -/
def readBlock (delivered : List Byte) : ReadOutcome :=
  let block := delivered.take 31
  if block.length < 31 then .failed safeUnread
  else if checkAgrees block then
    match Role.ofCode (field block 0 1) with
    | none => .failed (safeRead block)
    | some .relay => .good (rawRelay block).clampedRelay (decide ((rawRelay block).clampedRelay ≠ rawRelay block))
    | some .station =>
      match Fraction.ofCode (field block 5 1), fittedOfCode (field block 6 1) with
      | some fraction, some fitted =>
        .good (rawStation block fraction fitted).clamped
          (decide ((rawStation block fraction fitted).clamped ≠ rawStation block fraction fitted))
      | _, _ => .failed (safeRead block)
  else .failed (safeRead block)

/-! ### The temperature input -/

/-- The temperature T of a sounding (R4): a reading below −40 °C or above +85 °C is faulted, a faulted or absent one is
replaced by 15 °C, and the value is clamped to −30 to +60 °C. -/
def soundingTemperature (reading : Option Int) : Int :=
  let t := match reading with
    | none => 15
    | some r => if r < -40 ∨ 85 < r then 15 else r
  if t < -30 then -30 else if 60 < t then 60 else t

end Sys2Proof.Machine
end

