-- ==== Sys2Proof/Machine/Flags.lean ====
section
/-! DEFINITION. What the units report of themselves and what leaves the node as a level: flags, reports and outputs, each
a function of the state. -/

namespace Sys2Proof.Machine

/-! ### Reports -/

/-- The FULL rule (R18): FULL after a change of the fill value. -/
def fullRule (threshold : Nat) (fill : Option Nat) (full : Bool) : Bool :=
  match fill with
  | none => false
  | some f => if threshold ≤ f then true else if f ≤ threshold - 50 then false else full

/-- The press reads at home (R111, R128): with no press fitted in every case. -/
def Node.pressHome (n : Node) : Bool :=
  if n.control.settings.pressFitted then
    match n.press.state with
    | .home | .claiming | .inhibited => true
    | .stopped => n.press.homeSwitch == .active
    | .forward | .dwell | .reversing | .fault => false
  else true

/-- The hatch reads closed; UNSETTLED counts as open (R48). -/
def Node.hatchClosed (n : Node) : Bool := n.hatch.hatch == .closed

/-- The lift reads seated; UNSETTLED counts as lifted (R49). -/
def Node.liftSeated (n : Node) : Bool := n.hatch.lift == .seated

/-- A deferral condition of R21 holds. -/
def Node.soundingDeferred (n : Node) : Bool := !n.hatchClosed || !n.liftSeated || !n.pressHome

/-- A sounding is in flight (R3). -/
def Node.soundingInFlight (n : Node) : Bool := n.sounding.flight.isSome

/-- A service period runs (R47). -/
def Node.serviceRuns (n : Node) : Bool := n.hatch.service.isSome

/-- The item stands in the deposit log's holding slot (R90, R94): a DEPOSIT or an overflow deposit. -/
def LogEntry.isDeposit (e : LogEntry) : Bool :=
  match e.body with
  | .deposit .. => true
  | .overflowDeposit => true
  | _ => false

/-- The holding slot is occupied (R90, R94). -/
def Node.holdingOccupied (n : Node) : Bool :=
  n.log.appendList.any (·.isDeposit) || (match n.log.working with | some e => e.isDeposit | none => false)

/-- The call is SCHEDULED for today (R52, R166). -/
def Node.scheduledToday (n : Node) : Bool :=
  n.call.state == .scheduled && (match n.call.round with | some r => r.1 == n.clock.day | none => false)

/-- The seconds of day lie within the press hours (R112). -/
def withinHours (start stop seconds : Nat) : Bool :=
  if start = stop then true
  else if start < stop then decide (start * 3600 ≤ seconds) && decide (seconds < stop * 3600)
  else decide (start * 3600 ≤ seconds) || decide (seconds < stop * 3600)

/-- The station clock is SET and its seconds lie within the press hours (R112). -/
def Node.inPressHours (n : Node) : Bool :=
  match n.clock.seconds with
  | none => false
  | some s => withinHours n.control.settings.pressStart n.control.settings.pressEnd s

/-- The conditions of R112 on the fill: known and at or above the press threshold, or FULL set. -/
def Node.fillToPress (n : Node) : Bool :=
  (match n.sounding.fill with | some f => decide (n.control.settings.pressThreshold ≤ f) | none => false) || n.sounding.full

/-- Nothing goes on at the hatch (R112, R118): phase IDLE, the hatch CLOSED and the lift SEATED. -/
def Node.hatchQuiet (n : Node) : Bool := n.hatch.phase == .idle && n.hatchClosed && n.liftSeated

/-- The start conditions of R45: the configuration good, both scans ended, the press at home, the first sounding ended. -/
def Node.startConditions (n : Node) : Bool :=
  n.control.phase == .running && n.cards.phase != .scanning && n.log.phase == .opened && n.pressHome &&
    n.hatch.firstSounding

/-- The polarity lets the node transmit (R135). -/
def Node.mayTransmit (n : Node) : Bool := n.line.polarity != .undetected

/-! ### What telegrams carry -/

/-- The content of a FILL NOTICE, each field as its owner holds it (R149). -/
def Node.noticeContent (n : Node) : NoticeContent where
  fill := n.sounding.fill
  full := n.sounding.full
  sensorFault := n.sounding.sensorFault
  pressFault := n.control.settings.pressFitted && n.press.state == .fault
  outOfService := n.hatch.station == .outOfService
  hatchStuck := n.hatch.stuck
  service := n.serviceRuns
  callState := n.call.state

/-- The flags byte of a FILL NOTICE (12.1); bits 6 and 7, to which 12.1 gives no flag, are 0 (DESIGN CHOICE, log entry 52). -/
def NoticeContent.flags (c : NoticeContent) : Nat :=
  bit c.full 0 + bit c.sensorFault 1 + bit c.pressFault 2 + bit c.outOfService 3 + bit c.hatchStuck 4 + bit c.service 5

/-- Whether the fills of two notices call for a new one (R150): 50‰ apart or more, or one known and the other not. -/
def fillsDiffer : Option Nat → Option Nat → Bool
  | some a, some b => decide (50 ≤ absDiff a b)
  | none, none => false
  | some _, none => true
  | none, some _ => true

/-- Whether the present content calls for a FILL NOTICE, by the comparison of R150 with the last notice. -/
def NoticeContent.differs (c last : NoticeContent) : Bool :=
  fillsDiffer c.fill last.fill || c.flags != last.flags || c.callState != last.callState

/-- The flags word of a station's STATUS ANSWER (12.2); bits 9 to 15, to which 12.2 gives no flag, are 0 (DESIGN CHOICE, log
entry 52). -/
def Node.stationFlags (n : Node) : Nat :=
  bit n.sounding.full 0 + bit n.sounding.sensorFault 1 + bit n.noticeContent.pressFault 2 + bit n.hatch.stuck 3 +
    bit n.serviceRuns 4 + bit n.control.clamped 5 + bit n.cards.repaired 6 + bit n.log.accounting.rebuilt 7 +
    bit n.line.clash 8

/-- The flags word of a relay's STATUS ANSWER: bits 5 and 8 (12.2); the bits that it does not use are 0 (DESIGN CHOICE, log
entry 52). -/
def Node.relayFlags (n : Node) : Nat := bit n.control.clamped 5 + bit n.line.clash 8

/-! ### Outputs -/

/-- A level on an output: off, or driven at a duty in percent. -/
inductive Level where
  | off
  | duty (percent : Nat)
  deriving DecidableEq, Repr

/-- The hatch lock drive (R58): continuous in PULL-IN, 40% in HOLD. -/
def Node.lockOutput (n : Node) : Level :=
  match n.hatch.lock with
  | .off => .off
  | .pullIn _ => .duty 100
  | .hold => .duty 40

/-- The press forward drive (R120). -/
def Node.forwardOutput (n : Node) : Level :=
  match n.press.drive with
  | some d => if d.direction = .forward then .duty d.duty else .off
  | none => .off

/-- The press reverse drive (R120). -/
def Node.reverseOutput (n : Node) : Level :=
  match n.press.drive with
  | some d => if d.direction = .reverse then .duty d.duty else .off
  | none => .off

/-- The transducer transmit output (R5). -/
def Node.transducerOutput (n : Node) : Bool :=
  match n.sounding.flight with
  | some f => (match f.slot with | some s => s.driving | none => false)
  | none => false

/-- What the buzzer gives (R65). -/
inductive Sound where
  | silent
  | tone
  | continuous
  deriving DecidableEq, Repr

/-- The buzzer (R65): a tone sounds from its beginning to its end. -/
def Node.buzzerOutput (n : Node) : Sound :=
  match n.hatch.buzzer with
  | .silent => .silent
  | .tone _ begins _ => if begins ≤ n.now then .tone else .silent
  | .continuous => .continuous

/-- A lamp: dark, steady, or flashing at 2 Hz (R65). -/
inductive Lamp where
  | dark
  | steady
  | flashing
  deriving DecidableEq, Repr

/-- The three lamps of the panel. -/
structure Lamps where
  green : Lamp
  red   : Lamp
  amber : Lamp
  deriving DecidableEq, Repr

/-- The lamp pattern of an indication (R65). -/
def Indication.lamps : Indication → Lamps
  | .accept => ⟨.steady, .dark, .dark⟩
  | .crew => ⟨.steady, .dark, .steady⟩
  | .deferred => ⟨.dark, .dark, .steady⟩
  | .redirect _ => ⟨.dark, .steady, .dark⟩
  | .refusal _ => ⟨.dark, .steady, .dark⟩
  | .presentAgain => ⟨.dark, .dark, .steady⟩
  | .forced => ⟨.dark, .dark, .flashing⟩

/-- The three-digit display (00_scope, R65): each place dark or a digit, and all of it steady or flashing at 2 Hz. -/
structure Display where
  hundreds : Option (Fin 10)
  tens     : Option (Fin 10)
  units    : Option (Fin 10)
  flashing : Bool
  deriving DecidableEq, Repr

/-- A decimal digit of a number: `unit` is 1, 10 or 100. -/
def digitOf (number unit : Nat) : Fin 10 := Fin.ofNat 10 (number / unit)

/-- The blank display (R65). -/
def Display.blank : Display := ⟨none, none, none, false⟩

/-- A code, right-aligned as two digits, steady (R65). -/
def Display.code (number : Nat) : Display := ⟨none, some (digitOf number 10), some (digitOf number 1), false⟩

/-- An island number as one to three digits, flashing (R65), without leading zeros and right-aligned like a code (DESIGN CHOICE,
log entry 50). -/
def Display.island (number : Nat) : Display :=
  ⟨if 100 ≤ number then some (digitOf number 100) else none, if 10 ≤ number then some (digitOf number 10) else none,
    some (digitOf number 1), true⟩

/-- The display content of an indication (R65). -/
def Indication.display : Indication → Display
  | .accept | .crew | .deferred | .forced => .blank
  | .redirect island => .island island
  | .refusal code => .code code
  | .presentAgain => .code 19

/-- The lamps of the panel; dark when no indication is showing (R66). -/
def Node.lamps (n : Node) : Lamps :=
  match n.hatch.panel with
  | none => ⟨.dark, .dark, .dark⟩
  | some s => s.indication.lamps

/-- The display of the panel; blank when no indication is showing (R66). -/
def Node.display (n : Node) : Display :=
  match n.hatch.panel with
  | none => .blank
  | some s => s.indication.display

end Sys2Proof.Machine
end

