-- ==== Sys2Proof/Machine/Ops.lean ====
section
/-! DEFINITION. The shared operations: one update for each unit of the node, time, who may act, the cells and rows of the
nonvolatile store, the pseudo-random register, the transmit queue and the receive buffer. -/

namespace Sys2Proof.Machine

/-! ### Updates of one unit -/

/-- The node with another configuration and status unit. -/
def Node.withControl (n : Node) (x : Control) : Node := { n with control := x }

/-- The node with another sounding unit. -/
def Node.withSounding (n : Node) (x : Sounding) : Node := { n with sounding := x }

/-- The node with another card table. -/
def Node.withCards (n : Node) (x : Cards) : Node := { n with cards := x }

/-- The node with another hatch controller. -/
def Node.withHatch (n : Node) (x : Hatch) : Node := { n with hatch := x }

/-- The node with another tally unit. -/
def Node.withTally (n : Node) (x : Tally) : Node := { n with tally := x }

/-- The node with another station clock. -/
def Node.withClock (n : Node) (x : Clock) : Node := { n with clock := x }

/-- The node with another store. -/
def Node.withStore (n : Node) (x : Store) : Node := { n with store := x }

/-- The node with another deposit log. -/
def Node.withLog (n : Node) (x : Log) : Node := { n with log := x }

/-- The node with another press unit. -/
def Node.withPress (n : Node) (x : Press) : Node := { n with press := x }

/-- The node with another line unit. -/
def Node.withLine (n : Node) (x : Line) : Node := { n with line := x }

/-- The node with another neighbour unit. -/
def Node.withNeighbour (n : Node) (x : Neighbour) : Node := { n with neighbour := x }

/-- The node with another call unit. -/
def Node.withCall (n : Node) (x : Call) : Node := { n with call := x }

/-- The node with another relay unit. -/
def Node.withRelay (n : Node) (x : Relay) : Node := { n with relay := x }

/-- The node with the supply and the RESET pin otherwise. -/
def Node.withPower (n : Node) (x : Power) : Node := { n with power := x }

/-- The node at another moment. -/
def Node.withNow (n : Node) (t : Moment) : Node := { n with now := t }

/-! ### Time and who may act -/

/-- The timebase moves on by `dt` (DESIGN CHOICE, log entry 1). -/
def Node.advance (n : Node) (dt : Nat) : Node := n.withNow (n.now + dt)

/-- A command that ends a timer is taken no earlier than the timer's moment `due` (DESIGN CHOICE, log entry 2). -/
def Node.reach (n : Node) (due : Moment) : Node := n.withNow (max n.now due)

/-- The node is supplied, not held by the RESET pin, and its configuration read has ended: its units act (R185, R188). -/
def Node.live (n : Node) : Bool :=
  n.power.supply && !n.power.pinHeld && n.control.phase != .reading

/-- What a unit does once the node is live; before that it holds its start value (R185). -/
def Node.whenLive (n : Node) (f : Node → Node) : Node := if n.live then f n else n

/-- What a unit of the STATION role does. A relay has none of these units (R86, R109, R128, 08, 09). -/
def Node.whenStation (n : Node) (f : Node → Node) : Node :=
  if n.live && n.control.settings.role == .station then f n else n

/-- What the relay unit does in RUNNING (R175). -/
def Node.whenRelay (n : Node) (f : Node → Node) : Node :=
  if n.live && n.control.settings.role == .relay && n.relay.phase == .running then f n else n

/-- A command's step: time moves on, the node acts, the queue of commands stays as it is. -/
def State.perform (s : State) (dt : Nat) (f : Node → Node) : Host.Outcome State Fault Refusal :=
  .next ⟨f (s.node.advance dt), s.pending⟩

/-! ### The cells of the store -/

/-- The byte at an address: an address that is not listed reads 0, the factory content (R87, R193). -/
def Memory.read : List Host.Cell → Nat → Byte
  | [], _ => 0#8
  | (k, b) :: rest, a => if k = a then b else Memory.read rest a

/-- One byte written, in the canonical form: rising addresses, no cell that holds 0. -/
def Memory.write : List Host.Cell → Nat → Byte → List Host.Cell
  | [], a, b => if b = 0#8 then [] else [(a, b)]
  | (k, c) :: rest, a, b =>
    if a < k then (if b = 0#8 then (k, c) :: rest else (a, b) :: (k, c) :: rest)
    else if a = k then (if b = 0#8 then rest else (a, b) :: rest)
    else (k, c) :: Memory.write rest a b

/-- Bytes written from an address on. -/
def Memory.writeAll : List Host.Cell → Nat → List Byte → List Host.Cell
  | cells, _, [] => cells
  | cells, a, b :: bs => Memory.writeAll (Memory.write cells a b) (a + 1) bs

/-- `n` bytes from an address on. -/
def Memory.readAll (cells : List Host.Cell) (a : Nat) : Nat → List Byte
  | 0 => []
  | n + 1 => Memory.read cells a :: Memory.readAll cells (a + 1) n

/-- The canonical form from an address on: every cell at it or above, rising, none holding 0. -/
def Memory.wfFrom : Nat → List Host.Cell → Bool
  | _, [] => true
  | lo, (k, b) :: rest => decide (lo ≤ k) && b != 0#8 && Memory.wfFrom (k + 1) rest

/-- The canonical form of the cells. -/
def Memory.wf (cells : List Host.Cell) : Bool := Memory.wfFrom 0 cells

/-! ### The rows of the store -/

/-- Where a region's rows begin in the store. -/
def Region.base : Region → Nat
  | .card => 0
  | .revocation => 1024
  | .log => 1088
  | .accounting => 2112

/-- The place of a row in the store. -/
def rowPlace (region : Region) (row : Nat) : Nat := region.base + row

/-- The number of the tear that tore the row at this place, if it is torn (R88). -/
def tearOf : List (Nat × Nat) → Nat → Option Nat
  | [], _ => none
  | (k, t) :: rest, place => if k = place then some t else tearOf rest place

/-- The sixteen bytes of a row: free values when it is torn (R88, DESIGN CHOICE, log entry 8). -/
def Store.rowBytes (st : Store) (region : Region) (row : Nat) : List Byte :=
  match tearOf st.torn (rowPlace region row) with
  | some tear => (List.range 16).map (Config.tornByte tear)
  | none => Memory.readAll st.cells (16 * rowPlace region row) 16

/-- A row as its region's scan reads it: its bytes if it passes its check. A torn row fails it (R88). -/
def Store.readRow (st : Store) (region : Region) (row : Nat) : Option (List Byte) :=
  match tearOf st.torn (rowPlace region row) with
  | some _ => none
  | none =>
    let bytes := Memory.readAll st.cells (16 * rowPlace region row) 16
    if rowCheckPasses bytes then some bytes else none

/-- The staging queue has a free entry (R88). -/
def Store.hasRoom (st : Store) : Bool := decide (st.staging.length < stagingCapacity)

/-- The region's row writes are the deposit log's (R89). -/
def Region.isLog : Region → Bool
  | .log | .accounting => true
  | .card | .revocation => false

/-- A row write placed in the staging queue at `now`; the store begins to program it if it is not programming (R88). A unit
takes an entry that is kept for it first (R89). -/
def Store.place (st : Store) (now : Moment) (w : RowWrite) : Store :=
  { st with
    staging := st.staging ++ [w]
    forLog := if w.region.isLog then st.forLog - 1 else st.forLog
    forCards := if w.region.isLog then st.forCards else st.forCards - 1
    programEnds := match st.programEnds with | some t => some t | none => some (now + programLength) }

/-- A row that holds new content (R88): all sixteen bytes are written, and it is torn no more. -/
def Store.writeRow (st : Store) (w : RowWrite) : Store :=
  { st with
    cells := Memory.writeAll st.cells (16 * rowPlace w.region w.row) w.bytes
    torn := st.torn.filter (fun t => t.1 != rowPlace w.region w.row) }

/-- The end of the oldest program at `now`: the entry leaves the queue, its row holds the new content, and the next
program begins at once (R88). -/
def Store.programmed (st : Store) (now : Moment) : Store :=
  match st.staging with
  | [] => st
  | w :: rest =>
    { st.writeRow w with
      staging := rest
      programEnds := match rest with | [] => none | _ :: _ => some (now + programLength) }

/-- What a start or a failing supply makes of the store (R88): the row being programmed is torn, the waiting entries
are lost, BUSY is cleared. -/
def Store.cutOff (st : Store) : Store :=
  match st.programEnds, st.staging with
  | some _, w :: _ =>
    { st with
      torn := (rowPlace w.region w.row, st.tears) :: st.torn.filter (fun t => t.1 != rowPlace w.region w.row)
      tears := st.tears + 1
      staging := []
      programEnds := none
      forLog := 0
      forCards := 0 }
  | _, _ => { st with staging := [], programEnds := none, forLog := 0, forCards := 0 }

/-- A row write placed by a unit. -/
def Node.placeRow (n : Node) (region : Region) (row : Nat) (bytes : List Byte) : Node :=
  n.withStore (n.store.place n.now ⟨region, row, bytes⟩)

/-! ### The pseudo-random register -/

/-- One step of the register (R132): left by one bit, with the exclusive or of bits 15, 13, 12 and 10 in bit 0. -/
def randomStep (r : BitVec 16) : BitVec 16 :=
  (r <<< 1) ||| (BitVec.ofBool (r.getLsbD 15 ^^ r.getLsbD 13 ^^ r.getLsbD 12 ^^ r.getLsbD 10)).setWidth 16

/-- A draw in the range 0 to k − 1 (R132): the register steps once, and its content mod k is the value. -/
def Node.draw (n : Node) (k : Nat) : Node × Nat :=
  let r := randomStep n.line.random
  (n.withLine { n.line with random := r }, r.toNat % k)

/-! ### The outcome of an entry, as its owner takes it -/

/-- A telegram of the harvest in flight is finished (R101): after LAST the harvest is removed, else the next may be
built. -/
def Node.harvestFinished (n : Node) : Node :=
  match n.log.harvest with
  | none => n
  | some h =>
    match h.out with
    | none => n
    | some true => n.withLog { n.log with harvest := none }
    | some false => n.withLog { n.log with harvest := some { h with out := none } }

/-- A part of the status answer is finished (R190): part 2 is next, and after part 2 the answer is removed. -/
def Node.answerFinished (n : Node) : Node :=
  match n.control.answer with
  | none => n
  | some a =>
    if a.out then
      n.withControl { n.control with answer := if a.part = 1 then some ⟨a.tag, 2, false⟩ else none }
    else n

/-! ### The transmit queue -/

/-- An entry into its place: by class, and behind every entry of its class, since it is the youngest (R138). -/
def insertEntry (e : QueueEntry) : List QueueEntry → List QueueEntry
  | [] => [e]
  | x :: xs => if e.cls < x.cls then e :: x :: xs else x :: insertEntry e xs

/-- A waiting FILL NOTICE (R139). -/
def QueueEntry.waitingNotice (e : QueueEntry) : Bool := e.telegram.kind == .fillNotice && !e.sending

/-- An entry that a class-0 or class-1 offer may displace: waiting, of class 2 or 3 (R140). -/
def QueueEntry.displaceable (e : QueueEntry) : Bool := !e.sending && decide (2 ≤ e.cls)

/-- The newest displaceable entry: the one of greatest age number (R140). -/
def newestDisplaceable : List QueueEntry → Option QueueEntry
  | [] => none
  | e :: rest =>
    match newestDisplaceable rest with
    | none => if e.displaceable then some e else none
    | some x => if e.displaceable && decide (x.age < e.age) then some e else some x

/-- The queue without the entry of this age. -/
def withoutAge (age : Nat) (queue : List QueueEntry) : List QueueEntry := queue.filter (fun e => e.age != age)

/-- The queue drop counter rises by 1 (R146). -/
def Node.countQueueDrop (n : Node) : Node :=
  n.withLine { n.line with counters :=
    { n.line.counters with queueDrops := satAdd top16 n.line.counters.queueDrops 1 } }

/-- The owner of a displaced entry is told that it was dropped (R141): only the deposit log and the status unit have
class-3 telegrams whose outcome they act on. -/
def Node.tellDisplaced (n : Node) (owner : Owner) : Node :=
  match owner with
  | .depositLog => n.harvestFinished
  | .status => n.answerFinished
  | _ => n

/-- A telegram enters the transmit queue as an entry of its own (R138). -/
def Node.enqueue (n : Node) (owner : Owner) (t : Telegram) : Node :=
  n.withLine { n.line with
    queue := insertEntry ⟨t, t.kind.accessClass, n.line.nextAge, 0, false, owner⟩ n.line.queue
    nextAge := n.line.nextAge + 1 }

/-- The transmit queue has a free place (R140). -/
def Node.queueHasRoom (n : Node) : Bool := decide (n.line.queue.length < queueCapacity)

/-- A telegram of class 0, 1 or 2 is offered to the line unit (R139, R140). The second component is false when its
owner is told at once that it was dropped. A station in SAFE discards it, counting nothing and telling no one (R147). -/
def Node.offer (n : Node) (owner : Owner) (t : Telegram) : Node × Bool :=
  if n.control.phase = .safe then (n, true)
  else if t.kind = .fillNotice ∧ n.line.queue.any (·.waitingNotice) then
    (n.withLine { n.line with
      queue := n.line.queue.map (fun e => if e.waitingNotice then { e with telegram := t } else e) }, true)
  else if n.queueHasRoom then (n.enqueue owner t, true)
  else if t.kind.accessClass ≤ 1 then
    match newestDisplaceable n.line.queue with
    | some e =>
      ((((n.withLine { n.line with queue := withoutAge e.age n.line.queue }).countQueueDrop).tellDisplaced
        e.owner).enqueue owner t, true)
    | none => (n.countQueueDrop, false)
  else (n.countQueueDrop, false)

/-- An offer whose outcome its owner does not act on (R141). -/
def Node.offerOnly (n : Node) (owner : Owner) (t : Telegram) : Node := (n.offer owner t).1

/-- The node's own address; a node without one sends nothing (R187, R147). -/
def Node.ownAddress (n : Node) : Nat := n.control.settings.address.getD 0

/-- A telegram of the node's own: its address and island in the header (R192). -/
def Node.telegram (n : Node) (kind : Kind) (dest : Nat) (payload : List Byte) : Telegram :=
  ⟨kind, n.ownAddress, n.control.settings.island, dest, payload⟩

/-! ### The receive buffer -/

/-- The units that take telegrams from the receive buffer of a station (R144). -/
inductive Taker where
  | neighbour
  | tally
  | press
  | call
  | clock
  | control
  | log
  | cards
  | noOne
  deriving DecidableEq, Repr

/-- The owner on receipt of a kind (R144). -/
def Kind.taker : Kind → Taker
  | .fillNotice => .neighbour
  | .redirectNotice => .neighbour
  | .tallyNotice => .tally
  | .pressClaim => .press
  | .pressRelease => .press
  | .callAnswer => .call
  | .call => .call
  | .callJoin => .call
  | .time => .clock
  | .statusRequest => .control
  | .restart => .control
  | .harvestRequest => .log
  | .harvestConfirm => .log
  | .cardUpdate => .cards
  | .callClosed => .noOne
  | .statusAnswer => .noOne
  | .harvestAnswer => .noOne
  | .updateFault => .noOne
  | .noAnswer => .noOne

/-- The oldest telegram of a unit's kinds (R145). -/
def oldestOf (taker : Taker) (buffer : List Received) : Option Received :=
  buffer.find? (fun r => r.telegram.kind.taker == taker)

/-- The buffer without the oldest telegram of a unit's kinds. -/
def withoutOldest (taker : Taker) (buffer : List Received) : List Received :=
  buffer.eraseP (fun r => r.telegram.kind.taker == taker)

/-- A unit takes the oldest telegram of its kinds, which must be of the kind asked for (R145); nothing happens when it
is of another kind or there is none. -/
def Node.taking (n : Node) (kind : Kind) (f : Node → Received → Node) : Node :=
  match oldestOf kind.taker n.line.buffer with
  | none => n
  | some r =>
    if r.telegram.kind = kind then
      f (n.withLine { n.line with buffer := withoutOldest kind.taker n.line.buffer }) r
    else n

/-- A telegram that concerns the node enters the receive buffer, or is lost as an overrun (R145). -/
def Node.receive (n : Node) (t : Telegram) : Node :=
  if n.line.buffer.length < bufferCapacity then
    n.withLine { n.line with buffer := n.line.buffer ++ [⟨t, n.now⟩] }
  else
    n.withLine { n.line with counters := { n.line.counters with overruns := satAdd top16 n.line.counters.overruns 1 } }

end Sys2Proof.Machine
end

