-- ==== Sys2Proof/Machine/NeighbourUnit.lean ====
section
/-! DEFINITION. The neighbour unit (08): offering FILL NOTICEs, the neighbour view table, the redirect choice and the
redirect-expect list. -/

namespace Sys2Proof.Machine

/-! ### FILL NOTICEs -/

/-- The FILL NOTICE of a content (R149, 12.1). -/
def Node.noticeTelegram (n : Node) (c : NoticeContent) : Telegram :=
  n.telegram .fillNotice toAll
    ([BitVec.ofNat 8 n.control.settings.fraction.code] ++ bytesOf 2 n.control.settings.position ++
      bytesOf 2 (fillCode c.fill) ++ [BitVec.ofNat 8 c.flags, BitVec.ofNat 8 c.callState.code])

/-- A FILL NOTICE is offered with the content as it stands; the content and the moment become the last notice, and the
notice timer restarts with 60 min, whatever becomes of the offer (R150). -/
def Node.offerNotice (n : Node) : Node :=
  let c := n.noticeContent
  let n := n.offerOnly .neighbourUnit (n.noticeTelegram c)
  n.withNeighbour { n.neighbour with last := some c, lastAt := some n.now, timer := some (n.now + noticeLength) }

/-- In ACTIVE the unit compares the present content with the last notice and offers a new one when it differs enough
(R150). -/
def Node.noticeCheck (n : Node) : Node :=
  if n.neighbour.phase = .active then
    match n.neighbour.last with
    | none => n.offerNotice
    | some last => if n.noticeContent.differs last then n.offerNotice else n
  else n

/-- The station state has changed (R151): leaving STARTING for the first time makes the unit ACTIVE with a FILL NOTICE;
in ACTIVE the change is compared. -/
def Node.noticeStation (n : Node) : Node :=
  if n.neighbour.phase = .silent ∧ n.hatch.station ≠ .starting ∧ n.hatch.station ≠ .safe then
    (n.withNeighbour { n.neighbour with phase := .active }).offerNotice
  else n.noticeCheck

/-! ### The neighbour view table -/

/-- The call state codes run from 0 to 5 (R152, 12). -/
def callStateKnown (code : Nat) : Bool := decide (code ≤ 5)

/-- The view a FILL NOTICE gives, or none when its payload fails the check of R152. -/
def viewOf (t : Telegram) (heardAt : Moment) : Option View :=
  let position := field t.payload 1 2
  let fill := field t.payload 3 2
  let flags := field t.payload 5 1
  match Fraction.ofCode (field t.payload 0 1) with
  | none => none
  | some fraction =>
    if 4095 < position ∨ (1000 < fill ∧ fill ≠ 65535) ∨ callStateKnown (field t.payload 6 1) = false then none
    else some
      { address := t.sender
        island := t.island
        fraction := fraction
        position := position
        fill := if fill = 65535 then none else some fill
        full := decide (flags % 2 = 1)
        sensorFault := decide (flags / 2 % 2 = 1)
        outOfService := decide (flags / 8 % 2 = 1)
        hatchStuck := decide (flags / 16 % 2 = 1)
        heardAt := heardAt }

/-- The entry with the earliest last-heard moment (R152, R153). -/
def earliestView : List View → Option View
  | [] => none
  | v :: rest =>
    match earliestView rest with
    | none => some v
    | some w => if w.heardAt < v.heardAt then some w else some v

/-- The table without the entry of an address. -/
def withoutView (address : Nat) (views : List View) : List View := views.filter (fun v => v.address != address)

/-- A view into the table (R152): over the sender's entry, as a new one, or in place of the one heard longest ago. -/
def enterView (v : View) (views : List View) : List View :=
  if views.any (fun w => w.address == v.address) then
    views.map (fun w => if w.address == v.address then v else w)
  else if views.length < viewCapacity then views ++ [v]
  else
    match earliestView views with
    | none => views ++ [v]
    | some w => withoutView w.address views ++ [v]

/-! ### The redirect choice -/

/-- A view is fresh while less than 3 h have passed since it was heard (R153): of a redirect choice and an end of freshness
at the same moment the end is taken first (DESIGN CHOICE, log entry 43). -/
def View.fresh (v : View) (now : Moment) : Bool := decide (now - v.heardAt < freshLength)

/-- A candidate of R154: fresh, of the station's fraction, its four flags cleared, its fill known and below 900. -/
def View.candidate (v : View) (now : Moment) (fraction : Fraction) : Bool :=
  v.fresh now && v.fraction == fraction && !v.full && !v.outOfService && !v.sensorFault && !v.hatchStuck &&
    (match v.fill with | some f => decide (f < 900) | none => false)

/-- The first of two candidates is the better target: nearer, or as near with the lower address (R154). -/
def View.better (position : Nat) (a b : View) : Bool :=
  decide (absDiff a.position position < absDiff b.position position) ||
    (decide (absDiff a.position position = absDiff b.position position) && decide (a.address < b.address))

/-- The best of the candidates (R154). -/
def bestView (position : Nat) : List View → Option View
  | [] => none
  | v :: rest =>
    match bestView position rest with
    | none => some v
    | some w => if v.better position w then some v else some w

/-- The redirect target for a card (R154), if there is one. -/
def Node.redirectTarget (n : Node) : Option View :=
  bestView n.control.settings.position
    (n.neighbour.views.filter (fun v => v.candidate n.now n.control.settings.fraction))

/-- The REDIRECT NOTICE for a card to the target chosen (R155). -/
def Node.offerRedirect (n : Node) (card : CardNumber) (target : View) : Node :=
  n.offerOnly .neighbourUnit
    (n.telegram .redirectNotice target.address
      (bytesOf 4 card.toNat ++ [BitVec.ofNat 8 n.control.settings.fraction.code]))

/-! ### The redirect-expect list -/

/-- A card into the redirect-expect list at `now` (R156): as the newest, its older entry removed, or the oldest when the
list is full. -/
def enterExpected (card : CardNumber) (now : Moment) (list : List Expected) : List Expected :=
  if list.any (fun e => e.card == card) then list.filter (fun e => e.card != card) ++ [⟨card, now⟩]
  else if list.length < expectCapacity then list ++ [⟨card, now⟩]
  else list.drop 1 ++ [⟨card, now⟩]

/-- The card is expected (R157). -/
def Node.isExpected (n : Node) (card : CardNumber) : Bool := n.neighbour.expected.any (fun e => e.card == card)

/-- The card's entry is removed with the answer (R157). -/
def Node.dropExpected (n : Node) (card : CardNumber) : Node :=
  n.withNeighbour { n.neighbour with expected := n.neighbour.expected.filter (fun e => e.card != card) }

end Sys2Proof.Machine
end

