-- ==== Sys2Proof/Machine/CallUnit.lean ====
section
/-! DEFINITION. The call unit (09): raising, sending, renewing and closing the call record. -/

namespace Sys2Proof.Machine

/-- The call state changes, and the change is passed to the neighbour unit at that moment (R174). -/
def Node.setCall (n : Node) (c : Call) : Node := (n.withCall c).noticeCheck

/-- The tag after the last one used, mod 64 (R160). -/
def nextTag (last : Nat) : Nat := (last + 1) % 64

/-- The telegram of the call: a CALL, or a CALL JOIN for a joined call (R162, 12.1). -/
def Node.callTelegram (n : Node) (tag sends : Nat) : Telegram :=
  let place := [BitVec.ofNat 8 n.control.settings.fraction.code] ++ bytesOf 2 n.control.settings.position ++
    bytesOf 2 (fillCode n.sounding.fill)
  match n.call.lead with
  | none => n.telegram .call toRelay ([BitVec.ofNat 8 tag] ++ place ++ [BitVec.ofNat 8 sends])
  | some lead =>
    n.telegram .callJoin toRelay
      ([BitVec.ofNat 8 tag, BitVec.ofNat 8 lead.address, BitVec.ofNat 8 lead.tag] ++ place)

/-- In PENDING the call is offered as soon as the polarity lets the node transmit (R162): send count 1, the resend
timer with 10 min, AWAITING. -/
def Node.callOffer (n : Node) : Node :=
  if n.call.state = .pending ∧ n.mayTransmit = true then
    let n := n.offerOnly .callUnit (n.callTelegram (n.call.tag.getD 0) 1)
    n.setCall { n.call with state := .awaiting, sends := some 1, resend := some (n.now + resendLength) }
  else n

/-- A call with a new tag enters PENDING, own or joined, and is offered if it can be (R160, R161, R162, R168). -/
def Node.newCall (n : Node) (lead : Option Lead) : Node :=
  (n.setCall { n.call with
    state := .pending
    tag := some (nextTag n.call.lastTag)
    lastTag := nextTag n.call.lastTag
    sends := none
    resend := none
    rest := none
    round := none
    lead := lead }).callOffer

/-- The fill condition of R161: known and at or above the call threshold, or FULL set. -/
def Node.fillToCall (n : Node) : Bool :=
  (match n.sounding.fill with | some f => decide (n.control.settings.callThreshold ≤ f) | none => false) || n.sounding.full

/-- Raising is evaluated (R161): only in NONE, with the station READY. -/
def Node.raiseCall (n : Node) : Node :=
  if n.call.stopped = false ∧ n.call.state = .none ∧ n.hatch.station = .ready ∧ n.fillToCall = true then n.newCall none
  else n

/-- The missed-round test (R166): a SCHEDULED call whose round day + 1 is past is renewed under a new tag as an own
call. -/
def Node.missedRound (n : Node) : Node :=
  match n.call.state, n.call.round with
  | .scheduled, some r => if r.1 + 1 < n.clock.day then n.newCall none else n
  | _, _ => n

/-- A SCHEDULED answer is taken (R164): the round day and hour are the answer's, the timers stop, and the missed-round
test is made at once. -/
def Node.scheduleCall (n : Node) (day hourOfDay : Nat) : Node :=
  (n.setCall { n.call with state := .scheduled, resend := none, rest := none, round := some (day, hourOfDay) }).missedRound

/-- A DECLINED answer is taken (R164): HOLD-OFF with a rest of 4 h. -/
def Node.declineCall (n : Node) : Node :=
  n.setCall { n.call with state := .holdOff, resend := none, rest := some (n.now + holdOffLength), round := none }

/-- The call record as NONE has it; the last tag used and the stale count stay (R160, R167, R171). -/
def Call.ended (c : Call) : Call :=
  { c with state := .none, tag := none, sends := none, resend := none, rest := none, round := none, lead := none }

/-- At a lift an open call is closed with CALL CLOSED to RELAY (R171): cause 0 EMPTIED, 1 UNANNOUNCED (12.1). -/
def Node.closeCall (n : Node) (cause : Nat) : Node :=
  if n.call.state = .none then n
  else
    let n := n.offerOnly .callUnit
      (n.telegram .callClosed toRelay [BitVec.ofNat 8 (n.call.tag.getD 0), BitVec.ofNat 8 cause])
    n.setCall n.call.ended

/-- The stale answer count rises by 1 (R165). -/
def Node.countStale (n : Node) : Node := n.withCall { n.call with stale := satAdd top16 n.call.stale 1 }

end Sys2Proof.Machine
end

