-- ==== Sys2Proof/Machine/CallCommands.lean ====
section
/-! DEFINITION. The meanings of the call unit's commands (09). -/

namespace Sys2Proof.Machine

/-- The resend timer expires in AWAITING (R163): the call is offered again with the next send count, or after the sixth
send it is LAPSED with a rest of 2 h. -/
def Node.resendExpiry (n : Node) : Node :=
  match n.call.state, n.call.resend, n.call.sends with
  | .awaiting, some t, some k =>
    let n := n.reach t
    if k < 6 then
      let n := n.offerOnly .callUnit (n.callTelegram (n.call.tag.getD 0) (k + 1))
      n.withCall { n.call with sends := some (k + 1), resend := some (n.now + resendLength) }
    else n.setCall { n.call with state := .lapsed, resend := none, rest := some (n.now + lapseLength) }
  | _, _, _ => n

/-- RESEND_TIMER_EXPIRY (R163). -/
def execResendTimerExpiry (dt : Nat) (s : State) : Host.Outcome State Fault Refusal :=
  s.perform dt (fun n => n.whenStation Node.resendExpiry)

/-- The 2 h rest of LAPSED ends (R163): PENDING with the tag and the lead reference unchanged, and offered if it can be. -/
def Node.lapseExpiry (n : Node) : Node :=
  match n.call.state, n.call.rest with
  | .lapsed, some t =>
    let n := n.reach t
    (n.setCall { n.call with state := .pending, sends := none, rest := none }).callOffer
  | _, _ => n

/-- LAPSE_REST_EXPIRY (R163, R162). -/
def execLapseRestExpiry (dt : Nat) (s : State) : Host.Outcome State Fault Refusal :=
  s.perform dt (fun n => n.whenStation Node.lapseExpiry)

/-- The 4 h rest of HOLD-OFF ends, and the call with it (R167). -/
def Node.holdOffExpiry (n : Node) : Node :=
  match n.call.state, n.call.rest with
  | .holdOff, some t =>
    let n := n.reach t
    n.setCall n.call.ended
  | _, _ => n

/-- HOLD_OFF_EXPIRY (R167). -/
def execHoldOffExpiry (dt : Nat) (s : State) : Host.Outcome State Fault Refusal :=
  s.perform dt (fun n => n.whenStation Node.holdOffExpiry)

/-- The call states in which an answer with the call's tag is taken (R164). -/
def CallState.answerable : CallState → Bool
  | .awaiting => true
  | .scheduled => true
  | .lapsed => true
  | .holdOff => true
  | .none => false
  | .pending => false

/-- An answer's payload (12.1): addressed station, tag, outcome, round day, round hour. -/
structure CallAnswer where
  station : Nat
  tag     : Nat
  outcome : Nat
  day     : Nat
  hour    : Nat
  deriving DecidableEq, Repr

/-- The fields of a CALL ANSWER (12.1). -/
def callAnswerOf (payload : List Byte) : CallAnswer :=
  ⟨field payload 0 1, field payload 1 1, field payload 2 1, field payload 3 2, field payload 5 1⟩

/-- The answer is discarded without counting (R164): it is for another station, its outcome is neither SCHEDULED nor
DECLINED, or it is SCHEDULED with a round hour above 23. -/
def CallAnswer.discarded (a : CallAnswer) (own : Nat) : Bool :=
  a.station != own || decide (1 < a.outcome) || (a.outcome == 0 && decide (23 < a.hour))

/-- A CALL ANSWER (R164, R165): discarded, taken, or stale. A DECLINED answer in HOLD-OFF changes nothing. -/
def Node.hearAnswer (n : Node) (a : CallAnswer) : Node :=
  if a.discarded n.ownAddress then n
  else if n.call.state.answerable = true ∧ n.call.tag = some a.tag then
    if a.outcome = 0 then n.scheduleCall a.day a.hour
    else if n.call.state = .holdOff then n
    else n.declineCall
  else n.countStale

/-- CALL_ANSWER (R164, R165, R166). -/
def execCallAnswer (dt : Nat) (s : State) : Host.Outcome State Fault Refusal :=
  s.perform dt (fun n => n.whenStation (fun n =>
    n.taking .callAnswer (fun n r => n.hearAnswer (callAnswerOf r.telegram.payload))))

/-- The conditions of R168 that a heard call's fraction, position and the station's own fill meet. -/
def Node.mayJoin (n : Node) (fraction position : Nat) : Bool :=
  n.call.state == .none && n.hatch.station == .ready && fraction == n.control.settings.fraction.code &&
    decide (absDiff position n.control.settings.position ≤ n.control.settings.joinRadius) &&
    (match n.sounding.fill with | some f => decide (n.control.settings.joinThreshold ≤ f) | none => false)

/-- A heard CALL (R168): joined under the sender's address and tag. Tag, fraction, position (12.1). -/
def Node.hearCall (n : Node) (r : Received) : Node :=
  if n.mayJoin (field r.telegram.payload 1 1) (field r.telegram.payload 2 2) then
    n.newCall (some ⟨r.telegram.sender, field r.telegram.payload 0 1⟩)
  else n

/-- CALL (R168). -/
def execCall (dt : Nat) (s : State) : Host.Outcome State Fault Refusal :=
  s.perform dt (fun n => n.whenStation (fun n => n.taking .call Node.hearCall))

/-- A heard CALL JOIN (R168): joined under the lead it names, unless the lead is the station itself. Own tag, lead
address, lead tag, fraction, position (12.1). -/
def Node.hearJoin (n : Node) (r : Received) : Node :=
  if n.mayJoin (field r.telegram.payload 3 1) (field r.telegram.payload 4 2) = true ∧
      field r.telegram.payload 1 1 ≠ n.ownAddress then
    n.newCall (some ⟨field r.telegram.payload 1 1, field r.telegram.payload 2 1⟩)
  else n

/-- CALL_JOIN (R168). -/
def execCallJoin (dt : Nat) (s : State) : Host.Outcome State Fault Refusal :=
  s.perform dt (fun n => n.whenStation (fun n => n.taking .callJoin Node.hearJoin))

end Sys2Proof.Machine
end

