-- ==== Sys2Proof/Machine/SoundingUnit.lean ====
section
/-! DEFINITION. The sounding unit (01): requests, the start and the abandonment of a sounding, its evaluation, and the
fill value between soundings. -/

namespace Sys2Proof.Machine

/-! ### Requests (R19) -/

/-- A cause collapses into the request held, or makes one (R19): the later due time, and a marker set by either. -/
def mergeRequest (held : Option SoundingRequest) (due : Moment) (start repeats : Bool) : SoundingRequest :=
  match held with
  | none => ⟨due, start, repeats⟩
  | some r => ⟨max r.due due, r.start || start, r.repeats || repeats⟩

/-- The unit state once a request with this due time is held (R2, R19): a sounding in flight goes on, HELD stays HELD
only while the due time is past. -/
def armedPhase (phase : SoundingPhase) (due now : Moment) : SoundingPhase :=
  match phase with
  | .idle => .waiting
  | .waiting => .waiting
  | .held => if now < due then .waiting else .held
  | .inFlight => .inFlight
  | .stopped => .stopped

/-- A cause arms the sounding request (R19); in STOPPED it has no effect (R24). -/
def Sounding.arm (u : Sounding) (now due : Moment) (start repeats : Bool) : Sounding :=
  if u.phase = .stopped then u
  else
    let r := mergeRequest u.request due start repeats
    { u with request := some r, phase := armedPhase u.phase r.due now }

/-- A cause arms the request `delay` from now (R19). -/
def Node.armSounding (n : Node) (delay : Nat) : Node :=
  n.withSounding (n.sounding.arm n.now (n.now + delay) false false)

/-! ### Start and abandonment (R3, R21, R22) -/

/-- A sounding starts from a request (R3): it is opened with the request's markers and the temperature, and the request
is removed. -/
def Sounding.begin (u : Sounding) (r : SoundingRequest) (reading : Option Int) : Sounding :=
  { u with
    phase := .inFlight
    request := none
    flight := some ⟨r.start, r.repeats, soundingTemperature reading, [], none, none⟩ }

/-- A request whose due time has passed starts a sounding when no deferral condition holds, and is HELD while one does
(R21). -/
def Node.trySounding (n : Node) (reading : Option Int) : Node :=
  match n.sounding.request with
  | none => n
  | some r =>
    if (n.sounding.phase = .waiting ∨ n.sounding.phase = .held) ∧ r.due ≤ n.now then
      if n.soundingDeferred then n.withSounding { n.sounding with phase := .held }
      else n.withSounding (n.sounding.begin r reading)
    else n

/-- A sounding in flight is abandoned (R22): it is discarded with its results, and a request 3 s later carries its
markers. -/
def Node.abandonSounding (n : Node) : Node :=
  match n.sounding.flight with
  | none => n
  | some f =>
    n.withSounding (({ n.sounding with flight := none, phase := .waiting }).arm n.now (n.now + soundingDelay)
      f.start f.repeats)

/-! ### Evaluation (R7 to R13) -/

/-- A number into its place among ascending numbers. -/
def insertAscending (x : Nat) : List Nat → List Nat
  | [] => [x]
  | y :: ys => if x ≤ y then x :: y :: ys else y :: insertAscending x ys

/-- Ascending order, equal times kept as separate elements (R8). -/
def ascending (xs : List Nat) : List Nat := xs.foldr insertAscending []

/-- The valid pings, in ascending order (R7, R8). -/
def validPings (results : List (Option Nat)) : List Nat := ascending (results.filterMap id)

/-- The median element, at index floor((V − 1) / 2) (R8). -/
def medianOf (sorted : List Nat) : Nat := sorted.getD ((sorted.length - 1) / 2) 0

/-- The spread: the largest valid echo time minus the smallest (R8). -/
def spreadOf (sorted : List Nat) : Nat := sorted.getLastD 0 - sorted.headD 0

/-- A quotient by 100 rounded half away from zero (R9, 00_scope). -/
def roundHundredth (x : Int) : Int := if 0 ≤ x then (x + 50) / 100 else -((-x + 50) / 100)

/-- The speed of sound in tenths of m/s (R9). -/
def speedOfSound (t : Int) : Nat := (3313 + roundHundredth (606 * t)).toNat

/-- The distance to the waste surface in mm (R10). -/
def distanceOf (echo v10 : Nat) : Nat := (echo * v10 + 10000) / 20000

/-- The measured fill in permille (R11). -/
def measuredFill (e0 f0 d : Nat) : Nat :=
  if e0 ≤ d then 0 else if d ≤ f0 then 1000 else (e0 - d) * 1000 / (e0 - f0)

/-- What a sounding's results come to (R7 to R11): FAILED, or a median, a measured fill and whether it is UNSTEADY. -/
inductive Evaluation where
  | failed
  | used (median fill : Nat) (unsteady : Bool)
  deriving DecidableEq, Repr

/-- The evaluation of a sounding with the configured ping count, E0 and F0 (R7 to R11). -/
def evaluateSounding (s : Settings) (temperature : Int) (results : List (Option Nat)) : Evaluation :=
  let sorted := validPings results
  if sorted.length < (s.pingCount + 1) / 2 then .failed
  else
    .used (medianOf sorted) (measuredFill s.e0 s.f0 (distanceOf (medianOf sorted) (speedOfSound temperature)))
      (decide (2000 < spreadOf sorted))

/-- The unit state after a sounding: WAITING if a request is held, else IDLE (R12, R13). -/
def restingPhase (request : Option SoundingRequest) : SoundingPhase := if request.isSome then .waiting else .idle

/-- The end of a sounding that is used (R12). -/
def Node.soundingUsed (n : Node) (repeated : Bool) (median fill : Nat) (unsteady : Bool) : Node :=
  let u := { n.sounding with
    flight := none
    phase := restingPhase n.sounding.request
    fill := some fill
    full := fullRule n.control.settings.fullThreshold (some fill) n.sounding.full
    sensorFault := false
    failures := 0
    last := some (if unsteady then .unsteady else .accepted)
    median := some median
    periodic := some (n.now + periodicLength) }
  (n.withSounding
    (if unsteady && !repeated then u.arm n.now (n.now + repeatSoundingDelay) false true else u)).noticeCheck

/-- The end of a FAILED sounding (R13). -/
def Node.soundingFailed (n : Node) : Node :=
  let failures := satAdd 255 n.sounding.failures 1
  (n.withSounding { n.sounding with
    flight := none
    phase := restingPhase n.sounding.request
    sensorFault := n.sounding.sensorFault || decide (3 ≤ failures)
    failures := failures
    last := some .failed
    median := none
    periodic := some (n.now + periodicLength) }).noticeCheck

/-! ### The fill value between soundings (R16, R17) -/

/-- The fill value as a deposit raises it: by the bag increment, saturating at 1,000; unknown stays unknown (R16). -/
def Node.raisedFill (n : Node) : Option Nat :=
  n.sounding.fill.map (fun f => satAdd 1000 f n.control.settings.bagIncrement)

/-- A deposit completion reaches the sounding unit (R16); in STOPPED it has no effect (R24). -/
def Node.depositEstimate (n : Node) : Node :=
  if n.sounding.phase = .stopped then n
  else
    let u := { n.sounding with
      fill := n.raisedFill
      full := if n.sounding.fill.isSome then fullRule n.control.settings.fullThreshold n.raisedFill n.sounding.full
        else n.sounding.full }
    (n.withSounding (u.arm n.now (n.now + soundingDelay) false false)).noticeCheck

/-- A lift reaches the sounding unit (R17): the fill value is unknown, FULL is cleared and a sounding in flight is
abandoned; in STOPPED it has no effect (R24). -/
def Node.liftFill (n : Node) : Node :=
  if n.sounding.phase = .stopped then n
  else
    ((n.withSounding { n.sounding with
      fill := none
      full := fullRule n.control.settings.fullThreshold none n.sounding.full }).abandonSounding).noticeCheck

end Sys2Proof.Machine
end

