-- ==== Sys2Proof/Machine/PressUnit.lean ====
section
/-! DEFINITION. The press unit (06): the drives, the island claim list, the trigger, the own claim and the phases of a
stroke. What a reaching of home does at the other units is in HatchUnit. -/

namespace Sys2Proof.Machine

/-! ### Drives (R120) -/

/-- A drive in a direction starts with its soft start at 30% (R120). -/
def Press.startDrive (p : Press) (now : Moment) (direction : Direction) : Press :=
  { p with
    drive := some ⟨direction, 30, now, now + softStartStep⟩
    lastDirection := some direction
    forwardDue := none }

/-- The drive that is on ends: both outputs are off from this moment (R120). -/
def Press.endDrive (p : Press) (now : Moment) : Press :=
  match p.drive with
  | none => { p with forwardDue := none }
  | some _ => { p with drive := none, offSince := now, forwardDue := none }

/-- The reverse drive used so far in this return (R124): what was used before, and the drive that is on. -/
def Press.reverseSpent (p : Press) (now : Moment) : Nat :=
  match p.drive with
  | some d => if d.direction = .reverse then p.reverseUsed + (now - d.began) else p.reverseUsed
  | none => p.reverseUsed

/-- The press returns toward home (R121, R123, R126): REVERSE with the 25 s count at 0, the drive with its soft start. -/
def Press.startReverse (p : Press) (now : Moment) (kind : ReverseKind) : Press :=
  { (p.startDrive now .reverse) with
    state := .reversing
    kind := kind
    paused := false
    dwellEnds := none
    reverseUsed := 0 }

/-- Forward drive ends at an ordinary end: DWELL of 2 s, to be followed by a REVERSE of kind NORMAL (R121). -/
def Press.endForward (p : Press) (now : Moment) : Press :=
  { (p.endDrive now) with state := .dwell, kind := .normal, dwellEnds := some (now + dwellLength) }

/-- The forward drive of a stroke (R118, R120): at once, or when both outputs have been off for 250 ms after a drive in
the other direction (DEDUCED, log entry 15). -/
def Press.beginForward (p : Press) (now : Moment) : Press :=
  let p := { p with state := .forward, kind := .normal, paused := false, dwellEnds := none, reverseUsed := 0 }
  if p.lastDirection = some .reverse ∧ now < p.offSince + deadInterval then
    { p with forwardDue := some (p.offSince + deadInterval) }
  else p.startDrive now .forward

/-- The drive starts from home: a sounding in flight is abandoned (R22, R111). -/
def Node.startForward (n : Node) : Node :=
  let n := n.withPress (n.press.beginForward n.now)
  if n.press.drive.isSome then n.abandonSounding else n

/-- A hatch that reads open or a lift that reads lifted reaches the press (R123, R125). In FORWARD the drive ends and the
dwell is 250 ms; in DWELL the dwell is shortened to 250 ms after the end of forward drive, or ends at once; a NORMAL
reverse pauses. Nothing else is stopped. A stroke that still waits in FORWARD for its drive dwells 250 ms from the interruption,
and is a cycle like any other interrupted one; having no end of forward drive, it measures the 250 ms of a second interruption
in that dwell from the end of the drive before (DESIGN CHOICE, log entry 42). -/
def Press.interrupt (p : Press) (now : Moment) : Press :=
  match p.state with
  | .forward =>
    { (p.endDrive now) with state := .dwell, kind := .interrupted, dwellEnds := some (now + deadInterval) }
  | .dwell =>
    if p.offSince + deadInterval ≤ now then p.startReverse now .interrupted
    else { p with kind := .interrupted, dwellEnds := some (p.offSince + deadInterval) }
  | .reversing =>
    if p.kind = .normal ∧ p.paused = false then
      { (p.endDrive now) with paused := true, reverseUsed := p.reverseSpent now }
    else p
  | _ => p

/-- With the hatch closed and the insert seated again a paused reverse goes on, with a fresh soft start and the 25 s
count from where it stood (R125). -/
def Node.resumePress (n : Node) : Node :=
  if n.press.state = .reversing ∧ n.press.paused = true ∧ n.hatchClosed = true ∧ n.liftSeated = true then
    n.withPress { (n.press.startDrive n.now .reverse) with paused := false }
  else n

/-! ### The island claim list (R116) -/

/-- The list without the entry of an address. -/
def withoutClaim (address : Nat) (claims : List ClaimEntry) : List ClaimEntry :=
  claims.filter (fun e => e.address != address)

/-- A claim into the list (R116): the sender's older entry goes, the oldest goes when 8 are held, the new one is last. -/
def enterClaim (address : Nat) (expiry : Moment) (claims : List ClaimEntry) : List ClaimEntry :=
  let rest := withoutClaim address claims
  (if rest.length < claimCapacity then rest else rest.drop 1) ++ [⟨address, expiry⟩]

/-- A claimed duration in seconds as it is taken: 0 as 1, above 60 as 60 (R116). -/
def claimedSeconds (d : Nat) : Nat := if d = 0 then 1 else min 60 d

/-- The entries ahead of the own claim (R115): the other stations' entries, since the own one is entered last. -/
def claimsAhead (own : Nat) (claims : List ClaimEntry) : Nat := (withoutClaim own claims).length

/-- The entry that expires first (R116). -/
def firstExpiring : List ClaimEntry → Option ClaimEntry
  | [] => none
  | e :: rest =>
    match firstExpiring rest with
    | none => some e
    | some x => if x.expiry < e.expiry then some x else some e

/-! ### Claims (R112, R114, R117, R119) -/

/-- The retry timer starts with 20 s plus 0 to 40 s drawn (R117). -/
def Node.startRetry (n : Node) : Node :=
  let (n, r) := n.draw 41
  n.withPress { n.press with retry := some (n.now + (20 + r) * sec) }

/-- The own claim is dropped by the line unit (R114): the claim is absent, the press is at HOME, the retry timer runs. The
claim is queued or out only in CLAIMING (R110). -/
def Node.claimDropped (n : Node) : Node :=
  if n.press.state = .claiming then (n.withPress { n.press with claim := .absent, state := .home }).startRetry else n

/-- A PRESS RELEASE is queued; the own claim is absent and the own entry leaves the list (R119). -/
def Node.releaseClaim (n : Node) : Node :=
  let n := n.offerOnly .pressUnit (n.telegram .pressRelease toAll [BitVec.ofNat 8 n.control.settings.island])
  n.withPress { n.press with claim := .absent, claims := withoutClaim n.ownAddress n.press.claims }

/-- The conditions of R112. -/
def Node.triggerHolds (n : Node) : Bool :=
  (n.hatch.station == .ready || n.hatch.station == .service) && n.fillToPress && decide (4 ≤ n.press.deposits) &&
    n.inPressHours && n.hatchQuiet && !n.soundingInFlight && n.press.retry.isNone

/-- The trigger is evaluated in HOME (R112): when it holds a PRESS CLAIM is queued and the press is CLAIMING. A claim
refused by a full queue is dropped (R114). -/
def Node.pressTrigger (n : Node) : Node :=
  if n.control.settings.pressFitted = true ∧ n.press.state = .home ∧ n.triggerHolds = true then
    let (n, taken) := n.offer .pressUnit
      (n.telegram .pressClaim toAll [BitVec.ofNat 8 n.control.settings.island, BitVec.ofNat 8 claimSeconds])
    let n := n.withPress { n.press with claim := .queued, state := .claiming }
    if taken then n else n.claimDropped
  else n

/-- A granted claim (R118): given up when something goes on at the hatch, INHIBITED on a low supply, else the stroke
begins. -/
def Node.grantClaim (n : Node) (supplyLow : Bool) : Node :=
  if n.hatchQuiet = false then
    let n := n.releaseClaim
    n.withPress { n.press with state := .home }
  else if supplyLow then
    let n := n.releaseClaim
    n.withPress { n.press with state := .inhibited, inhibit := some (n.now + inhibitLength) }
  else n.startForward

/-- The own claim is judged (R115): the entries ahead decide; a refused claim is released and retried (R117). -/
def Node.judgeClaim (n : Node) (supplyLow : Bool) : Node :=
  if claimsAhead n.ownAddress n.press.claims < n.control.settings.pressLimit then n.grantClaim supplyLow
  else
    let n := n.releaseClaim
    (n.withPress { n.press with state := .home }).startRetry

/-- The own claim is sent (R114): its entry is the last of the list, and the grant decision is made at once. The claim is
queued or out only in CLAIMING (R110). -/
def Node.claimSent (n : Node) (supplyLow : Bool) : Node :=
  if n.press.state = .claiming then
    let claims := enterClaim n.ownAddress (n.now + claimSeconds * sec + claimGrace) n.press.claims
    (n.withPress { n.press with claims := claims, claim := .opened }).judgeClaim supplyLow
  else n

end Sys2Proof.Machine
end

