-- ==== Sys2Proof/Machine/LogUnit.lean ====
section
/-! DEFINITION. The deposit log (05): requests for records, the accounting content, the placing of row writes, freeing
and the start scan's repairs. -/

namespace Sys2Proof.Machine

/-! ### Requests for records (R91, R94) -/

/-- The time field of a record: the clock's seconds in units of 2 s, or time-unset (R82). -/
def Clock.recordTime (c : Clock) : Option Nat := c.seconds.map (· / 2)

/-- The content of a record, fixed as the request reaches the log (R91). -/
def Node.entryOf (n : Node) (body : RecordBody) (fill : Option Nat) : LogEntry :=
  ⟨body, n.clock.day, n.clock.recordTime, n.control.settings.fraction, fill⟩

/-- An entry that is not a deposit takes a place of the event list (R94). -/
def LogEntry.isEvent (e : LogEntry) : Bool := !e.isDeposit

/-- An overflow deposit, counted already and of which no record will be made (R81, R98, log entry 48). -/
def LogEntry.isOverflow (e : LogEntry) : Bool := e.body == .overflowDeposit

/-- A DAY CLOSE (R97). -/
def LogEntry.isDayClose (e : LogEntry) : Bool :=
  match e.body with
  | .dayClose .. => true
  | _ => false

/-- The places of the event list that are taken (R94): the events of the append list and the one being worked. -/
def Log.eventsHeld (l : Log) : Nat :=
  (l.appendList.filter LogEntry.isEvent).length + (match l.working with | some e => if e.isEvent then 1 else 0 | none => 0)

/-- A record is lost: the lost event count rises by 1 (R94, R98); accounting is due when it was a DAY CLOSE (R97). -/
def Log.lose (l : Log) (e : LogEntry) : Log :=
  { l with lost := satAdd top16 l.lost 1, due := l.due || e.isDayClose }

/-- A record other than a DEPOSIT arrives (R94). -/
def Log.enterEvent (l : Log) (e : LogEntry) : Log :=
  if l.eventsHeld < eventCapacity then { l with appendList := l.appendList ++ [e] } else l.lose e

/-- A record request other than a DEPOSIT reaches the log (R94); in SCANNING it waits for the end of the scan (R90). -/
def Node.requestRecord (n : Node) (body : RecordBody) (fill : Option Nat) : Node :=
  if n.log.phase = .scanning then n.withLog { n.log with early := n.log.early ++ [(body, fill)] }
  else n.withLog (n.log.enterEvent (n.entryOf body fill))

/-- A DEPOSIT enters the holding slot, or waits behind it (R94, R96). -/
def Node.enterDeposit (n : Node) (e : LogEntry) : Node :=
  n.withLog { n.log with appendList := n.log.appendList ++ [e] }

/-! ### The accounting content (R92) -/

/-- The raises of a deposit completion (R84, R92). -/
def Accounting.deposited (a : Accounting) (charge : Nat) : Accounting :=
  { a with
    total := satAdd top24 a.total charge
    count := satAdd top16 a.count 1
    hatchCycles := satAdd top24 a.hatchCycles 1 }

/-- The press cycle end raises the lifetime press cycles and makes accounting due (R92). -/
def Node.countPressCycle (n : Node) : Node :=
  n.withLog { n.log with
    accounting := { n.log.accounting with pressCycles := satAdd top16 n.log.accounting.pressCycles 1 }
    due := true }

/-- An overflow deposit is counted (R98). -/
def Accounting.overflowed (a : Accounting) (charge : Nat) : Accounting :=
  { a with overflowCount := satAdd top16 a.overflowCount 1, overflowCharge := satAdd top24 a.overflowCharge charge }

/-- The accounting content of a new day (R80 step 5, R97). -/
def Accounting.newDay (a : Accounting) (day : Nat) : Accounting :=
  { a with day := day, total := 0, count := 0, overflowCount := 0, overflowCharge := 0, rebuilt := false }

/-! ### Placing row writes (R89, R92, R93, R95) -/

/-- The staging queue admits a row write of the deposit log (R89): it has a free entry beyond those that were given to the
card table as they freed (DEDUCED, log entry 7). -/
def Node.logAdmitted (n : Node) : Bool := decide (n.store.staging.length + n.store.forCards < stagingCapacity)

/-- The lifetime row of an accounting row write is placed; the write is whole, and the item being worked leaves (R92,
R95). -/
def Node.placeLifetime (n : Node) (bytes : List Byte) : Node :=
  if n.logAdmitted then
    (n.placeRow .accounting 1 bytes).withLog { n.log with pair := .none, working := none }
  else n

/-- The accounting row is placed with the content as it stands, which the lifetime row will carry too; accounting is due
no more (R92, R93). -/
def Node.placeAccounting (n : Node) : Node :=
  if n.logAdmitted then
    ((n.placeRow .accounting 0 (accountingRow n.log.accounting)).withLog
      { n.log with pair := .lifetimeRow (lifetimeRow n.log.accounting), due := false }).placeLifetime
        (lifetimeRow n.log.accounting)
  else n

/-- The log places what remains of an accounting row write, as far as the staging queue admits it (R89, R92). -/
def Node.placeWaiting (n : Node) : Node :=
  match n.log.pair with
  | .none => n
  | .both => n.placeAccounting
  | .lifetimeRow bytes => n.placeLifetime bytes

/-- The deposit log has a row write waiting (R89): then it takes an entry that frees before the card table. -/
def Log.hasWork (l : Log) : Bool :=
  l.phase == .opened &&
    (l.pair != .none || l.working.isSome || !l.appendList.isEmpty || l.due || l.mark.isSome)

/-- The free entries of the staging queue that are the deposit log's (R89): those given to it as they freed, as long as it
has writes waiting. -/
def Node.entriesForLog (n : Node) : Nat := if n.log.hasWork then n.store.forLog else 0

/-- The log may begin a write of its own: OPEN, none of its writes under way, and a free entry (R95). -/
def Node.logReady (n : Node) : Bool :=
  n.log.phase == .opened && n.log.pair == .none && n.log.working.isNone && n.logAdmitted

/-! ### Sequence numbers and freeing (R100, R103) -/

/-- The distance from one sequence forward to another (5.5). -/
def seqDistance (a b : Sequence) : Nat := (b - a).toNat

/-- How a sequence lies to the held records (5.5). -/
inductive SeqPlace where
  | held
  | beyondNewest
  | olderThanOldest
  deriving DecidableEq, Repr

/-- Where a sequence lies (5.5): held when its distance from the oldest is below the number held; beyond the newest when
its distance from the newest lies between 1 and 8,388,607; else older than the oldest. With no record held, beyond. -/
def placeOf (held : List LogRecord) (q : Sequence) : SeqPlace :=
  match held.head?, held.getLast? with
  | some o, some w =>
    if seqDistance o.seq q < held.length then .held
    else if 1 ≤ seqDistance w.seq q ∧ seqDistance w.seq q ≤ 8388607 then .beyondNewest
    else .olderThanOldest
  | _, _ => .beyondNewest

/-- The committed mark, if its record is still held (R90). -/
def stillHeld (held : List LogRecord) (mark : Option Sequence) : Option Sequence :=
  match mark with
  | none => none
  | some q => if held.any (fun r => r.seq == q) then some q else none

/-- The newest event of an append list is lost, when there is one (R99). -/
def Log.loseNewestEvent (l : Log) : Log :=
  match l.appendList.reverse.find? LogEntry.isEvent with
  | none => l
  | some e => { l with appendList := (l.appendList.reverse.eraseP LogEntry.isEvent).reverse }.lose e

/-- An OVERFLOW SUMMARY ahead of every item waiting, with the counters it carries cleared (R99). `summary` is its
content. A full event list loses its newest record. -/
def Log.summarise (l : Log) (summary : LogEntry) : Log :=
  let l := { l with
    accounting := { l.accounting with overflowCount := 0, overflowCharge := 0 }
    lost := 0 }
  let l := if eventCapacity ≤ l.eventsHeld then l.loseNewestEvent else l
  { l with appendList := summary :: l.appendList }

/-- The OVERFLOW SUMMARY of the counters as they stand (R99, R91). -/
def Node.summaryEntry (n : Node) : LogEntry :=
  n.entryOf (.overflowSummary n.log.accounting.overflowCount n.log.accounting.overflowCharge n.log.lost) n.sounding.fill

/-- Held records are freed (R103): `freed` are those that leave, oldest first, `kept` those that stay. The mark is set to
the newest freed record, and an OVERFLOW SUMMARY is made when a counter is above 0 (R99). -/
def Node.freeRecords (n : Node) (freed kept : List LogRecord) : Node :=
  match freed.getLast? with
  | none => n
  | some newest =>
    let l := { n.log with held := kept, committed := stillHeld kept n.log.committed }
    let l := if 0 < l.accounting.overflowCount ∨ 0 < l.lost then l.summarise n.summaryEntry else l
    n.withLog { l with mark := some newest, markAhead := l.appendList.length }

/-! ### The start scan (R105 to R107) -/

/-- The record a log row holds for the scan (R105). -/
def Store.logRecord (st : Store) (row : Nat) : Option LogRecord :=
  match st.readRow .log row with
  | none => none
  | some bytes => readLogRow row bytes

/-- The later of two records, taking the wrap into account (R105). -/
def laterRecord (a b : LogRecord) : LogRecord := if seqDistance a.seq b.seq ≤ 8388607 then b else a

/-- The newest of the records found (R105). -/
def newestRecord : List LogRecord → Option LogRecord
  | [] => none
  | r :: rest =>
    match newestRecord rest with
    | none => some r
    | some x => some (laterRecord r x)

/-- The log row of a sequence number (R95). -/
def logRowOf (q : Sequence) : Nat := q.toNat % logCapacity

/-- The run that ends at the record with sequence `q`, newest first, of at most `k` records (R105): backward while the
row holds that sequence, unmarked. -/
def heldRun (st : Store) : Nat → Sequence → List LogRecord
  | 0, _ => []
  | k + 1, q =>
    match st.logRecord (logRowOf q) with
    | none => []
    | some r => if r.seq = q ∧ r.confirmed = false then r :: heldRun st k (q - 1) else []

/-- The records the 1,024 rows hold (R105). -/
def Store.foundRecords (st : Store) : List LogRecord := (List.range logCapacity).filterMap st.logRecord

/-- The day number after a day: 65,535 stays (R80). -/
def dayAfter (day : Nat) : Nat := min lastDay (day + 1)

/-- The day of the accounting content rebuilt from the newest record found (R106). -/
def rebuiltDay : Option LogRecord → Nat
  | none => 0
  | some r => if r.entry.isDayClose then dayAfter r.entry.day else r.entry.day

/-- The charge of a DEPOSIT record; 0 in the other kinds (R91). -/
def LogEntry.charge (e : LogEntry) : Nat :=
  match e.body with
  | .deposit _ charge _ _ _ => charge
  | _ => 0

/-- The DEPOSIT records held with a day (R106). -/
def depositsOf (held : List LogRecord) (day : Nat) : List LogRecord :=
  held.filter (fun r => r.entry.isDeposit && r.entry.day == day)

/-- The accounting content rebuilt from the log rows when the accounting row fails (R106). -/
def rebuiltAccounting (newest : Option LogRecord) (held : List LogRecord) (a : Accounting) : Accounting :=
  let day := rebuiltDay newest
  let deposits := match newest with
    | none => []
    | some r => if r.entry.isDayClose then [] else depositsOf held day
  { a with
    day := day
    total := satAdd top24 0 ((deposits.map (fun r => r.entry.charge)).sum)
    count := satAdd top16 0 deposits.length
    overflowCount := 0
    overflowCharge := 0
    next := match newest with | none => 0 | some r => r.seq + 1
    rebuilt := true }

/-- The newest record folded into the accounting content (R107). A DAY CLOSE is folded as a rollover, which clears
ACCOUNTING REBUILT too (R92, R97). -/
def Accounting.fold (a : Accounting) (r : LogRecord) : Accounting :=
  let a := { a with next := r.seq + 1 }
  match r.entry.body with
  | .deposit _ charge _ _ _ =>
    (if a.day < r.entry.day then
      { a with day := r.entry.day, total := 0, count := 0, overflowCount := 0, overflowCharge := 0 } else a).deposited charge
  | .dayClose .. => a.newDay (dayAfter r.entry.day)
  | .overflowSummary .. => { a with overflowCount := 0, overflowCharge := 0 }
  | _ => a

/-- What the scan leaves: the held records, the accounting content and whether it was changed (R105 to R107). -/
structure ScanResult where
  held       : List LogRecord
  accounting : Accounting
  changed    : Bool
  deriving DecidableEq, Repr

/-- The repair of the next sequence number against the newest held record (R107), for a passing accounting row. One that
lies before the newest record, of which R107 says nothing, becomes w + 1, so that the sequence numbers stay consecutive
(R98, DESIGN CHOICE, log entry 20). -/
def repairSequence (held : List LogRecord) (a : Accounting) (changed : Bool) : ScanResult :=
  match held.getLast? with
  | none => ⟨held, a, changed⟩
  | some w =>
    if a.next = w.seq + 1 then ⟨held, a, changed⟩
    else if a.next = w.seq then ⟨held, a.fold w, true⟩
    else if seqDistance (w.seq + 1) a.next ≤ 8388607 then ⟨[], a, true⟩
    else ⟨held, { a with next := w.seq + 1 }, true⟩

/-- The start scan of the log region and the accounting rows (R105 to R107). -/
def Store.scanLog (st : Store) : ScanResult :=
  let found := newestRecord st.foundRecords
  let held := match found with
    | none => []
    | some r => (heldRun st logCapacity r.seq).reverse
  let life := match st.readRow .accounting 1 with
    | some bytes => readLifetimeRow bytes .initial
    | none => { Accounting.initial with rebuilt := true }
  let lifeFailed := (st.readRow .accounting 1).isNone
  match st.readRow .accounting 0 with
  | some bytes => repairSequence held (readAccountingRow bytes life) lifeFailed
  | none => ⟨held, rebuiltAccounting found held life, true⟩

end Sys2Proof.Machine
end

