-- ==== Sys2Proof/Machine/TallyUnit.lean ====
section
/-! DEFINITION. The tally unit and the charge computation (04): the tally table, its evictions, its rebuild, and the
charge of a deposit. -/

namespace Sys2Proof.Machine

/-- The entry of a card (R69). -/
def tallyEntry (card : CardNumber) (entries : List TallyEntry) : Option TallyEntry :=
  entries.find? (fun e => e.card == card)

/-- The table with one entry changed. -/
def changeTally (card : CardNumber) (f : TallyEntry → TallyEntry) (entries : List TallyEntry) : List TallyEntry :=
  entries.map (fun e => if e.card == card then f e else e)

/-- The entry that R72 evicts: the smallest stamp among those with local count 0. -/
def evictable : List TallyEntry → Option TallyEntry
  | [] => none
  | e :: rest =>
    match evictable rest with
    | none => if e.loc = 0 then some e else none
    | some x => if e.loc = 0 ∧ e.stamp < x.stamp then some e else some x

/-- The table with room for one more entry (R71, R72): as it is below 384 entries, else without the evicted one; none
when there is nothing to evict. -/
def roomInTally (entries : List TallyEntry) : Option (List TallyEntry) :=
  if entries.length < tallyCapacity then some entries
  else
    match evictable entries with
    | none => none
    | some e => some (entries.filter (fun x => x.card != e.card))

/-- The stamp of the next touch (R72): the next value of the touch counter; at the counter's maximum (R69) a free value
(DESIGN CHOICE, log entry 36). -/
def Tally.nextStamp (t : Tally) : Nat :=
  if t.touches < lastTouch then t.touches + 1 else (Config.touchBeyond (t.entries.map (·.stamp))).toNat

/-- A touch gives the next value of the touch counter as stamp (R72): the entry is raised by `raise`, or created as
`fresh` when the card has none and there is room; none when there is no room. -/
def Tally.touch (t : Tally) (card : CardNumber) (raise : TallyEntry → TallyEntry) (fresh : Nat → TallyEntry) :
    Option Tally :=
  let stamp := t.nextStamp
  if (tallyEntry card t.entries).isSome then
    some { t with
      entries := changeTally card (fun e => { raise e with stamp := stamp }) t.entries
      touches := stamp }
  else
    match roomInTally t.entries with
    | none => none
    | some entries => some { t with entries := entries ++ [fresh stamp], touches := stamp }

/-- A deposit of the card counted locally (R71): its local count raised, saturating at 15, or a new entry with local
count 1; none when there is no room. -/
def Tally.countDeposit (t : Tally) (card : CardNumber) : Option Tally :=
  t.touch card (fun e => { e with loc := satAdd 15 e.loc 1 }) (fun stamp => ⟨card, 1, 0, stamp⟩)

/-- A heard notice counted (R74): the heard count raised, saturating at 63, or a new entry with heard count 1; none when
there is no room. -/
def Tally.countHeard (t : Tally) (card : CardNumber) : Option Tally :=
  t.touch card (fun e => { e with heard := satAdd 63 e.heard 1 }) (fun stamp => ⟨card, 0, 1, stamp⟩)

/-- The tally loss counter rises by 1 (R69). -/
def Tally.lose (t : Tally) : Tally := { t with loss := satAdd top16 t.loss 1 }

/-- The known count of a card, or none for NO ROOM (R70). -/
def Tally.knownCount (t : Tally) (card : CardNumber) : Option Nat :=
  match tallyEntry card t.entries with
  | some e => some (e.loc + e.heard)
  | none => if (roomInTally t.entries).isSome then some 0 else none

/-- One held record in the rebuild (R76): a DEPOSIT of the day raises its card's local count; with no room the loss
counter rises. -/
def rebuildRecord (day : Nat) (t : Tally) (r : LogRecord) : Tally :=
  match r.entry.body with
  | .deposit card _ _ _ _ =>
    if r.entry.day = day then
      match t.countDeposit card with
      | some t' => t'
      | none => t.lose
    else t
  | _ => t

/-- The tally table with the rebuild of R76 ended: rebuilt from the held records, oldest first, if the log's start scan has
ended and the rebuild has not. The day is that of the clock and the records are those held at this moment, also after a
rollover or a HARVEST CONFIRM taken since the scan (DESIGN CHOICE, log entry 47). -/
def Node.tallyInUse (n : Node) : Tally :=
  if n.tally.rebuilt = false ∧ n.log.phase = .opened then
    { n.log.held.foldl (rebuildRecord n.clock.day) n.tally with rebuilt := true }
  else n.tally

/-- The rebuild ends (R76): with the append that follows or makes the end of the wait of the start's RESTART record, or before
the first completion if that comes earlier (DEDUCED, log entry 45). -/
def Node.endRebuild (n : Node) : Node := n.withTally n.tallyInUse

/-- The table is emptied at a rollover; the loss counter stays (R69, R80). -/
def Tally.emptied (t : Tally) : Tally := { t with entries := [], touches := 0 }

/-- The TALLY NOTICE of a completed deposit (R73, 12.1). -/
def Node.tallyTelegram (n : Node) (card : CardNumber) : Telegram :=
  n.telegram .tallyNotice toAll
    (bytesOf 4 card.toNat ++ [BitVec.ofNat 8 n.control.settings.fraction.code] ++ bytesOf 2 n.clock.day)

/-! ### The charge (R83) -/

/-- The factor of a band (R83). -/
def bandFactor (band : Nat) : Nat := 4 * band

/-- The charge: base × f / 8 rounded half up, halved when the card is expected, then clamped to 255 (R83). -/
def chargeOf (base band : Nat) (expected : Bool) : Nat :=
  let unhalved := (base * bandFactor band + 4) / 8
  min 255 (if expected then unhalved / 2 else unhalved)

end Sys2Proof.Machine
end

