-- ==== Sys2Proof/Machine/HatchUnit.lean ====
section
/-! DEFINITION. The hatch controller (03): the panel, the station state, the release window and the deferred release,
deposits, and what a press that reaches home does at the other units. -/

namespace Sys2Proof.Machine

/-! ### The panel (R65, R66) -/

/-- The buzzer pattern of an indication at `now` (R65). -/
def Indication.buzzer (i : Indication) (now : Moment) : Buzzer :=
  match i with
  | .redirect _ | .refusal _ => .tone 1 now (now + toneLength)
  | .accept | .crew | .deferred | .presentAgain => .tone 0 now (now + toneLength)
  | .forced => .continuous

/-- The standing indication of the window or deferred release that is held (R66). -/
def Hatch.standing (h : Hatch) : Option Indication :=
  match h.phase with
  | .window =>
    match h.acceptance with
    | some a => some (if a.cls = .crew then .crew else .accept)
    | none => some .accept
  | .deferred => some .deferred
  | _ => none

/-- An indication that is shown for 4 s; it replaces the one showing (R65, R66). -/
def Hatch.show (h : Hatch) (now : Moment) (i : Indication) : Hatch :=
  { h with panel := some ⟨i, some (now + indicationLength)⟩, buzzer := i.buzzer now }

/-- The standing indication of the window or release that is held; the panel goes dark when none is (R66). -/
def Hatch.showStanding (h : Hatch) (now : Moment) : Hatch :=
  match h.standing with
  | some i => { h with panel := some ⟨i, none⟩, buzzer := i.buzzer now }
  | none => { h with panel := none, buzzer := .silent }

/-- A standing indication ends with its window or release; a 4 s indication goes on (R66). -/
def Hatch.endStanding (h : Hatch) : Hatch :=
  match h.panel with
  | some s => if s.ends.isNone then { h with panel := none, buzzer := .silent } else h
  | none => h

/-! ### The release window and the deferred release (R57 to R59) -/

/-- A release window opens or restarts (R57, R58): 10 s, a fresh pull-in, the standing indication. -/
def Hatch.openWindow (h : Hatch) (now : Moment) : Hatch :=
  ({ h with
    phase := .window
    window := some (now + windowLength)
    deferred := none
    lock := .pullIn (now + pullInLength) }).showStanding now

/-- The window or the deferred release ends without the hatch opening: lock drive OFF, the acceptance discarded,
nothing counted, phase IDLE (R57, R59). -/
def Hatch.endRelease (h : Hatch) : Hatch :=
  ({ h with phase := .idle, window := none, deferred := none, acceptance := none, lock := .off }).endStanding

/-- The window is left by an opening: the acceptance is kept for the opening it is for (R57, R61). -/
def Hatch.leaveWindow (h : Hatch) (phase : HatchPhase) : Hatch :=
  ({ h with phase := phase, window := none, lock := .off }).endStanding

/-- A deferred release begins (R59): 20 s, lock OFF, the amber indication. -/
def Hatch.defer (h : Hatch) (now : Moment) (a : Acceptance) : Hatch :=
  ({ h with phase := .deferred, deferred := some (now + deferredLength), acceptance := some a }).showStanding now

/-! ### Lookups (R28) -/

/-- The record in the first occupied slot of the bucket that holds the number, in slot order (R27, R28). -/
def slotHolding (slots : List (Nat × CardRecord)) (card : CardNumber) : Option (Nat × CardRecord) :=
  slots.find? (fun s => s.1 / 4 == card.toNat % bucketCount && s.2.number == card)

/-- A record lookup (R28): absent for every number during CLEARING. -/
def Cards.lookup (c : Cards) (card : CardNumber) : Option CardRecord :=
  if c.phase = .clearing then none else (slotHolding c.slots card).map (·.2)

/-- A revocation lookup (R28): NOT MEMBER for every number during REVOKE CLEARING. -/
def Cards.isRevoked (c : Cards) (card : CardNumber) : Bool :=
  if c.phase = .revokeClearing then false else c.revoked.any (fun p => p.2 == card)

/-! ### The station state (R44 to R47) -/

/-- The station state changes (R44): the change is made known to the neighbour unit (R150, R151) and to the call unit,
which evaluates raising when the station becomes READY (R161). -/
def Node.setStation (n : Node) (state : StationState) : Node :=
  if n.hatch.station = state then n
  else
    let n := (n.withHatch { n.hatch with station := state }).noticeStation
    if state = .ready then n.raiseCall else n

/-- The state of a station whose start conditions have been met: SERVICE while a service period runs, else READY. -/
def Node.readyOrService (n : Node) : StationState := if n.serviceRuns then .service else .ready

/-- The start conditions are evaluated (R45): when all hold in STARTING the station leaves it. -/
def Node.evaluateStart (n : Node) : Node :=
  if n.hatch.station = .starting ∧ n.startConditions = true then
    (n.withHatch { n.hatch with conditionsMet := true }).setStation n.readyOrService
  else n

/-- The press has entered FAULT: the station is OUT OF SERVICE, whatever it was (R46). -/
def Node.outOfService (n : Node) : Node := if n.hatch.station = .safe then n else n.setStation .outOfService

/-- The press is at home again: the station leaves OUT OF SERVICE (R46), and the start conditions are evaluated, since
one of them has changed (R45). -/
def Node.backInService (n : Node) : Node :=
  let n :=
    if n.hatch.station = .outOfService then
      n.setStation (if n.hatch.conditionsMet then n.readyOrService else .starting)
    else n
  n.evaluateStart

/-- A service period begins or is re-armed by a crew card (R47); a station in READY goes to SERVICE. -/
def Node.beginService (n : Node) (card : CardNumber) : Node :=
  let n := n.withHatch { n.hatch with service := some ⟨n.now + serviceLength, card⟩ }
  if n.hatch.station = .ready then n.setStation .service else n.noticeCheck

/-- The service period ends (R47): a station in SERVICE returns to READY. -/
def Node.endService (n : Node) : Node :=
  let n := n.withHatch { n.hatch with service := none }
  if n.hatch.station = .service then n.setStation .ready else n.noticeCheck

/-! ### Deposits (R63) -/

/-- The press unit counts a completed deposit, saturating at 255 (R113); with no press fitted it keeps no state (R128). -/
def Node.countPressDeposit (n : Node) : Node :=
  if n.control.settings.pressFitted then n.withPress { n.press with deposits := satAdd 255 n.press.deposits 1 } else n

/-- The deposit in progress completes (R63), after the rebuild of the tally table (R76): the tally unit counts it and queues
its TALLY NOTICE (R71, R73), the charge is computed and a redirect-expect entry consumed (R83, R157), the accounting content
is raised and the DEPOSIT record enters the holding slot (R92, R94, R96), the fill is raised and a sounding armed (R16), and
the press counts it (R113). The acceptance is discarded with it (R55). -/
def Node.completeDeposit (n : Node) : Node :=
  match n.hatch.acceptance with
  | none => n
  | some a =>
    let service := n.serviceRuns
    let counted := n.tallyInUse.countDeposit a.card
    let unchecked := a.unchecked || counted.isNone
    let n := n.withTally (counted.getD n.tallyInUse)
    let n := n.offerOnly .tallyUnit (n.tallyTelegram a.card)
    let redirected := n.isExpected a.card
    let charge := chargeOf n.control.settings.baseRate ((a.band.getD 0).toNat) redirected
    let n := n.dropExpected a.card
    let n := n.withLog { n.log with accounting := n.log.accounting.deposited charge }
    let n := n.enterDeposit (n.entryOf (.deposit a.card charge unchecked redirected service) n.raisedFill)
    let n := n.depositEstimate
    (n.countPressDeposit).withHatch { n.hatch with acceptance := none }

/-! ### The press at home (R59, R111, R121, R126, R127) -/

/-- A deferred release with the press at home (R59): the revocation lookup decides between the window and code 11. -/
def Node.deferredToWindow (n : Node) : Node :=
  if n.hatch.phase = .deferred then
    match n.hatch.acceptance with
    | none => n
    | some a =>
      if n.cards.isRevoked a.card then n.withHatch (n.hatch.endRelease.show n.now (.refusal 11))
      else n.withHatch (n.hatch.openWindow n.now)
  else n

/-- The press state becomes HOME: the drive is off and nothing of the stroke remains. -/
def Press.atHome (p : Press) (now : Moment) : Press :=
  { (p.endDrive now) with state := .home, paused := false, dwellEnds := none, homingFrom := none, reverseUsed := 0 }

/-- The cycle ends at home (R121): the release is queued, the deposit count is 0, a sounding is armed 5 s later and the
lifetime press cycles rise. -/
def Node.endCycle (n : Node) : Node :=
  let n := n.releaseClaim
  let n := n.withPress { n.press with deposits := 0 }
  let n := n.armSounding cycleSoundingDelay
  n.countPressCycle

/-- The press has reached home, at the end of a cycle, of homing or of recovery (R121, R126, R127): the station may leave
OUT OF SERVICE, a deferred release may become a window, a held sounding may start, and the trigger is evaluated. -/
def Node.reachHome (n : Node) (reading : Option Int) : Node :=
  let kind := n.press.kind
  let n := (n.withPress (n.press.atHome n.now)).noticeCheck
  let n := if kind = .normal ∨ kind = .interrupted then n.endCycle else n
  ((n.backInService.deferredToWindow).trySounding reading).pressTrigger

/-- The press enters FAULT (R124): the drive is off, an OPEN claim is released, PRESS FAULT is set and the station is OUT
OF SERVICE. The switch has not read ACTIVE within the limit (DESIGN CHOICE, log entry 16). -/
def Node.pressFault (n : Node) : Node :=
  let n := n.withPress { (n.press.endDrive n.now) with
    state := .fault, paused := false, dwellEnds := none, homeSwitch := .inactive }
  let n := if n.press.claim = .opened then n.releaseClaim else n
  (n.noticeCheck).outOfService

end Sys2Proof.Machine
end

