-- ==== Sys2Proof/Machine/CardUnit.lean ====
section
/-! DEFINITION. The card table (02): its slots and positions, the working of CARD UPDATE operations, clears and the start
scan. -/

namespace Sys2Proof.Machine

/-! ### Slots and positions -/

/-- A place of an ascending list takes a value. -/
def putAt {α : Type} (place : Nat) (x : α) : List (Nat × α) → List (Nat × α)
  | [] => [(place, x)]
  | (k, y) :: rest =>
    if place < k then (place, x) :: (k, y) :: rest
    else if place = k then (place, x) :: rest
    else (k, y) :: putAt place x rest

/-- A place of an ascending list is freed. -/
def freeAt {α : Type} (place : Nat) (list : List (Nat × α)) : List (Nat × α) := list.filter (fun p => p.1 != place)

/-- What a place of an ascending list holds. -/
def valueAt {α : Type} (place : Nat) (list : List (Nat × α)) : Option α := (list.find? (fun p => p.1 == place)).map (·.2)

/-- The lowest free place of `count` from `first` on (R30, R35). -/
def lowestFree {α : Type} (list : List (Nat × α)) (first count : Nat) : Option Nat :=
  ((List.range count).map (first + ·)).find? (fun place => (valueAt place list).isNone)

/-- The first slot of a card's bucket (R27). -/
def bucketStart (card : CardNumber) : Nat := 4 * (card.toNat % bucketCount)

/-- The card row that a slot lies in, with both its slots as the table holds them (R27). -/
def Node.placeCardRow (n : Node) (slot : Nat) : Node :=
  n.placeRow .card (slot / 2)
    (cardRow (valueAt (2 * (slot / 2)) n.cards.slots) (valueAt (2 * (slot / 2) + 1) n.cards.slots))

/-- The revocation row that a position lies in, with both its positions as the list holds them (R35). -/
def Node.placeRevocationRow (n : Node) (position : Nat) : Node :=
  n.placeRow .revocation (position / 2)
    (revocationRow (valueAt (2 * (position / 2)) n.cards.revoked) (valueAt (2 * (position / 2) + 1) n.cards.revoked))

/-- The staging queue admits a row write of the card table (R29, R89): it has a free entry beyond those that were given to
the deposit log as they freed, which the log keeps as long as it has writes waiting (DEDUCED, log entry 7), and the log has
not placed a part only of a record's rows or of an accounting row write, between which no card row comes. -/
def Node.cardsAdmitted (n : Node) : Bool :=
  n.log.pair == .none && decide (n.store.staging.length + n.entriesForLog < stagingCapacity)

/-! ### Update faults (R37) -/

/-- Why an operation faults (R30, R31, R35), with the code of 12.1. -/
inductive FaultReason where
  | bucketFull
  | revocationFull
  | malformed
  deriving DecidableEq, Repr

/-- The code of a fault reason (12.1). -/
def FaultReason.code : FaultReason → Nat
  | .bucketFull => 0
  | .revocationFull => 1
  | .malformed => 2

/-- An UPDATE FAULT is queued to RELAY (R37, 12.1). -/
def Node.updateFault (n : Node) (index : Nat) (card : CardNumber) (reason : FaultReason) : Node :=
  n.offerOnly .cardTable
    (n.telegram .updateFault toRelay
      ([BitVec.ofNat 8 index] ++ bytesOf 4 card.toNat ++ [BitVec.ofNat 8 reason.code]))

/-! ### The telegram being worked (R29, R31) -/

/-- The telegram being worked leaves the receive buffer, if it still stands there (R29). -/
def Node.updateLeaves (n : Node) : Node :=
  match n.cards.update with
  | none => n
  | some u =>
    if u.buffered then n.withLine { n.line with buffer := withoutOldest .cards n.line.buffer } else n

/-- What comes after an operation (R29, R31): an operation of unknown kind is faulted MALFORMED with card number 0 and
ends the telegram; after the last operation the telegram leaves; else the next operation waits to be worked. -/
def Node.settleUpdate (n : Node) (u : CardUpdate) : Node :=
  match u.ops with
  | [] =>
    let n := (n.withCards { n.cards with update := some u }).updateLeaves
    n.withCards { n.cards with update := none }
  | (index, .unknown) :: _ =>
    let n := (n.withCards { n.cards with update := some u }).updateLeaves
    (n.withCards { n.cards with update := none }).updateFault index 0 .malformed
  | _ => n.withCards { n.cards with update := some u }

/-- The slot an ADD takes (R30): the one that holds the number, else the lowest free slot of the bucket. -/
def Cards.slotFor (c : Cards) (card : CardNumber) : Option Nat :=
  match slotHolding c.slots card with
  | some s => some s.1
  | none => lowestFree c.slots (bucketStart card) 4

/-- The operation changes a row (R29, R30, R32, R35), and so waits until the staging queue admits its write. -/
def Cards.changesRow (c : Cards) (op : CardOp) : Bool :=
  match op with
  | .add number cls status rights tariff => (addRecord number cls status rights tariff).isSome && (c.slotFor number).isSome
  | .remove number => (slotHolding c.slots number).isSome
  | .revokeAdd number =>
    !c.revoked.any (fun p => p.2 == number) && (lowestFree c.revoked 0 revocationPositions).isSome
  | .revokeRemove number => c.revoked.any (fun p => p.2 == number)
  | .clear | .revokeClear | .unknown => false

/-- The operation at the front is worked by `f`, which is given the operation and its index and answers none when it is of
another kind; one that changes a row waits until the staging queue admits it (R29, R89). Only in table phase OPEN. -/
def Node.workOp (n : Node) (f : Node → Nat → CardOp → Option Node) : Node :=
  match n.cards.phase, n.cards.update with
  | .opened, some u =>
    match u.ops with
    | [] => n
    | (index, op) :: rest =>
      if n.cards.changesRow op = true ∧ n.cardsAdmitted = false then n
      else
        match f n index op with
        | none => n
        | some n' => n'.settleUpdate { u with ops := rest }
  | _, _ => n

/-! ### The operations (R30, R32, R33, R35, R36) -/

/-- A record into a slot: the check value and, for a placement, the entry count change with it (R30, R38), and the row
is written. -/
def Node.putRecord (n : Node) (slot : Nat) (r : CardRecord) : Node :=
  let old := valueAt slot n.cards.slots
  (n.withCards { n.cards with
    slots := putAt slot r n.cards.slots
    entries := if old.isSome then n.cards.entries else n.cards.entries + 1
    checkValue := n.cards.checkValue - (match old with | some o => recordCrc o | none => 0) + recordCrc r }).placeCardRow slot

/-- ADD (R30, R31). -/
def Node.workAdd (n : Node) (index : Nat) (op : CardOp) : Option Node :=
  match op with
  | .add number cls status rights tariff =>
    match addRecord number cls status rights tariff with
    | none => some (n.updateFault index number .malformed)
    | some r =>
      match n.cards.slotFor number with
      | none => some (n.updateFault index number .bucketFull)
      | some slot => some (n.putRecord slot r)
  | _ => none

/-- REMOVE (R32): an absent card changes nothing. -/
def Node.workRemove (n : Node) (_ : Nat) (op : CardOp) : Option Node :=
  match op with
  | .remove number =>
    match slotHolding n.cards.slots number with
    | none => some n
    | some s =>
      some ((n.withCards { n.cards with
        slots := freeAt s.1 n.cards.slots
        entries := n.cards.entries - 1
        checkValue := n.cards.checkValue - recordCrc s.2 }).placeCardRow s.1)
  | _ => none

/-- REVOKE ADD (R35). -/
def Node.workRevokeAdd (n : Node) (index : Nat) (op : CardOp) : Option Node :=
  match op with
  | .revokeAdd number =>
    if n.cards.revoked.any (fun p => p.2 == number) then some n
    else
      match lowestFree n.cards.revoked 0 revocationPositions with
      | none => some (n.updateFault index number .revocationFull)
      | some position =>
        some ((n.withCards { n.cards with
          revoked := putAt position number n.cards.revoked
          revocations := n.cards.revocations + 1 }).placeRevocationRow position)
  | _ => none

/-- REVOKE REMOVE (R35): a number not held changes nothing. -/
def Node.workRevokeRemove (n : Node) (_ : Nat) (op : CardOp) : Option Node :=
  match op with
  | .revokeRemove number =>
    match n.cards.revoked.find? (fun p => p.2 == number) with
    | none => some n
    | some p =>
      some ((n.withCards { n.cards with
        revoked := freeAt p.1 n.cards.revoked
        revocations := n.cards.revocations - 1 }).placeRevocationRow p.1)
  | _ => none

/-- A clear begins in `phase` (R33, R36): from row 0; the telegram leaves the receive buffer and what follows in it is
held. -/
def Node.beginClear (n : Node) (phase : TablePhase) (rest : List (Nat × CardOp)) : Node :=
  let n := n.updateLeaves
  n.withCards { n.cards with
    phase := phase
    progress := some 0
    update := if rest.isEmpty then none else some ⟨rest, false⟩ }

/-- CLEAR or REVOKE CLEAR at the front of the operations, in table phase OPEN (R29, R33, R36). -/
def Node.workClear (n : Node) (op : CardOp) (phase : TablePhase) : Node :=
  match n.cards.phase, n.cards.update with
  | .opened, some u =>
    match u.ops with
    | (_, front) :: rest => if front = op then n.beginClear phase rest else n
    | [] => n
  | _, _ => n

/-- The region and the row count of the clear in flight (R33, R36). -/
def Cards.clearing (c : Cards) : Option (Region × Nat) :=
  match c.phase with
  | .clearing => some (.card, cardRows)
  | .revokeClearing => some (.revocation, revocationRows)
  | _ => none

/-- The empty row write of the next row of a clear, when the staging queue admits it (R33, R36). -/
def Node.clearRow (n : Node) : Node :=
  match n.cards.clearing, n.cards.progress with
  | some (region, rows), some row =>
    if row < rows ∧ n.cardsAdmitted = true then
      (n.placeRow region row emptyRow).withCards { n.cards with progress := some (row + 1) }
    else n
  | _, _ => n

/-- The held operations are taken up when a clear has completed (R34, R36). -/
def Node.resumeHeld (n : Node) : Node :=
  match n.cards.update with
  | none => n
  | some u => n.settleUpdate u

/-- The program of a row ends (R34, R36): when it is the last row of the clear in flight, all of whose rows have been
placed, the clear completes. -/
def Node.clearProgrammed (n : Node) (w : RowWrite) : Node :=
  match n.cards.clearing, n.cards.progress with
  | some (region, rows), some row =>
    if row = rows ∧ w.region = region ∧ w.row + 1 = rows then
      (if n.cards.phase = .clearing then
        n.withCards { n.cards with
          phase := .opened, progress := none, slots := [], entries := 0, checkValue := 0, repaired := false }
      else n.withCards { n.cards with phase := .opened, progress := none, revoked := [], revocations := 0 }).resumeHeld
    else n
  | _, _ => n

/-! ### The entries of the staging queue that free (R89) -/

/-- How many row writes the card table has to place (R29, R33, R36): in table phase OPEN that of the operation at the front,
if it changes a row; in a clear one for each row still to come. -/
def Cards.rowsWaiting (c : Cards) : Nat :=
  match c.phase with
  | .opened =>
    match c.update with
    | some ⟨(_, op) :: _, _⟩ => if c.changesRow op then 1 else 0
    | _ => 0
  | _ =>
    match c.clearing, c.progress with
    | some (_, rows), some row => rows - row
    | _, _ => 0

/-- No entry of the staging queue is free but those kept for a unit (R89): a unit that has none of these waits. -/
def Node.entriesTaken (n : Node) : Bool :=
  decide (stagingCapacity ≤ n.store.staging.length + n.entriesForLog + n.store.forCards)

/-- With nothing of the log waiting no entry is kept for it, and where `taken` says that no other was free before, the card
table takes what has become free, as far as it has writes waiting (R89; DEDUCED, log entry 7). -/
def Node.releaseFreed (n : Node) (taken : Bool) : Node :=
  if n.log.hasWork then n
  else
    n.withStore { n.store with
      forLog := 0
      forCards := if taken then min n.cards.rowsWaiting (stagingCapacity - n.store.staging.length) else n.store.forCards }

/-- The entry of a program that has ended is given out (R89): where `taken` says that no other was free before, it is the
log's while the log has writes waiting, and else the card table's if that has. -/
def Node.giveFreed (n : Node) (taken : Bool) : Node :=
  if n.log.hasWork = true ∧ taken = true then
    n.withStore { n.store with forLog := stagingCapacity - (n.store.staging.length + n.store.forCards) }
  else n.releaseFreed taken

/-! ### The start scan (R40, R41) -/

/-- A card row as the scan takes it: what its two slots are read as; two free slots and a repair when it fails (R40). -/
def Store.cardSlots (st : Store) (row : Nat) : List SlotRead :=
  match st.readRow .card row with
  | none => [.outOfRange, .outOfRange]
  | some bytes => [readSlot (bytes.take 7), readSlot ((bytes.drop 7).take 7)]

/-- The records of one bucket from its slots in order: a slot out of range, and a number that a lower slot holds, is
taken as free. -/
def scanSlots : Nat → List SlotRead → List (Nat × CardRecord) → List (Nat × CardRecord)
  | _, [], kept => kept
  | slot, .occupied r :: rest, kept =>
    if kept.any (fun p => p.2.number == r.number) then scanSlots (slot + 1) rest kept
    else scanSlots (slot + 1) rest (kept ++ [(slot, r)])
  | slot, .free :: rest, kept => scanSlots (slot + 1) rest kept
  | slot, .outOfRange :: rest, kept => scanSlots (slot + 1) rest kept

/-- A slot that is not free. -/
def SlotRead.isOccupied : SlotRead → Bool
  | .free => false
  | .occupied _ => true
  | .outOfRange => true

/-- The four slots of a bucket as its two rows say (R27). -/
def Store.bucketReads (st : Store) (b : Nat) : List SlotRead := st.cardSlots (2 * b) ++ st.cardSlots (2 * b + 1)

/-- The records of one bucket (R40). -/
def Store.scanBucket (st : Store) (b : Nat) : List (Nat × CardRecord) := scanSlots (4 * b) (st.bucketReads b) []

/-- A bucket in which the scan dropped something (R40): fewer records than slots that are not free. -/
def Store.bucketRepaired (st : Store) (b : Nat) : Bool :=
  decide ((st.scanBucket b).length < ((st.bucketReads b).filter SlotRead.isOccupied).length)

/-- A revocation row as the scan takes it (R41): two free positions when it fails. -/
def Store.rowPositions (st : Store) (row : Nat) : List (Option CardNumber) :=
  match st.readRow .revocation row with
  | none => [none, none]
  | some bytes => [readPosition (bytes.take 5), readPosition ((bytes.drop 5).take 5)]

/-- The positions in order; a number that a lower position holds is taken as free (R41). -/
def scanPositions : Nat → List (Option CardNumber) → List (Nat × CardNumber) → List (Nat × CardNumber)
  | _, [], kept => kept
  | position, none :: rest, kept => scanPositions (position + 1) rest kept
  | position, some c :: rest, kept =>
    if kept.any (fun p => p.2 == c) then scanPositions (position + 1) rest kept
    else scanPositions (position + 1) rest (kept ++ [(position, c)])

/-- All 128 positions as the rows say (R41). -/
def Store.positions (st : Store) : List (Option CardNumber) := (List.range revocationRows).flatMap st.rowPositions

/-- The revocation list as the scan leaves it (R41). -/
def Store.scanRevocations (st : Store) : List (Nat × CardNumber) := scanPositions 0 st.positions []

/-- The revocation scan dropped something (R41): a row failed its check, or a number was held twice. -/
def Store.revocationsRepaired (st : Store) : Bool :=
  (List.range revocationRows).any (fun r => (st.readRow .revocation r).isNone) ||
    decide (st.scanRevocations.length < (st.positions.filter Option.isSome).length)

/-- The card table as the start scan leaves it (R38, R40, R41). -/
def Store.scanCards (st : Store) (c : Cards) : Cards :=
  let slots := (List.range bucketCount).flatMap st.scanBucket
  let revoked := st.scanRevocations
  { c with
    phase := .opened
    slots := slots
    revoked := revoked
    entries := slots.length
    revocations := revoked.length
    checkValue := (slots.map (fun s => recordCrc s.2)).sum
    repaired := (List.range bucketCount).any st.bucketRepaired || st.revocationsRepaired }

end Sys2Proof.Machine
end

