-- ==== Sys2Proof/Machine/HatchCommands.lean ====
section
/-! DEFINITION. The meanings of the hatch controller's commands (03): the card reader, the window and its timers, the
panel, and the hatch and lift switches. -/

namespace Sys2Proof.Machine

/-! ### Card evaluation (R50 to R60) -/

/-- The card's own acceptance is pending in WINDOW or DEFERRED (R56). -/
def Hatch.ownPending (h : Hatch) (card : CardNumber) : Bool :=
  (h.phase == .window || h.phase == .deferred) && (match h.acceptance with | some a => a.card == card | none => false)

/-- A refusal at one of the steps 1 to 7 (R51, R56): the code is shown, and an acceptance of the same card that is pending
ends. -/
def Node.refuseEarly (n : Node) (card : CardNumber) (code : Nat) : Node :=
  n.withHatch ((if n.hatch.ownPending card then n.hatch.endRelease else n.hatch).show n.now (.refusal code))

/-- A refusal at one of the steps 8 to 10 (R51). -/
def Node.refuse (n : Node) (code : Nat) : Node := n.withHatch (n.hatch.show n.now (.refusal code))

/-- FULL is set (R53): the card is sent to a redirect target, or refused with code 21 on the day of a scheduled round and
code 20 otherwise. -/
def Node.redirectCard (n : Node) (card : CardNumber) : Node :=
  match n.redirectTarget with
  | some v => (n.withHatch (n.hatch.show n.now (.redirect v.island))).offerRedirect card v
  | none => n.refuse (if n.scheduledToday then 21 else 20)

/-- The answer of step 10 (R54): refused, or accepted with or without the mark UNCHECKED. -/
def allowanceSpent (allowance : Nat) (known : Option Nat) : Bool :=
  match known with
  | none => false
  | some k => decide (allowance ≠ 15 ∧ allowance ≤ k)

/-- The card is accepted (R55): a window with the press at home (R57), else a deferred release (R59). -/
def Node.acceptCard (n : Node) (a : Acceptance) : Node :=
  if n.pressHome then n.withHatch (({ n.hatch with acceptance := some a }).openWindow n.now)
  else n.withHatch (n.hatch.defer n.now a)

/-- Step 8 holds (R51): the station is busy at its hatch. -/
def Node.hatchBusy (n : Node) : Bool := !n.hatchQuiet || n.holdingOccupied

/-- Steps 8 to 12 (R51). -/
def Node.judgeDeposit (n : Node) (r : CardRecord) : Node :=
  if n.hatchBusy then n.refuse 30
  else if n.sounding.full then n.redirectCard r.number
  else
    let known := n.tallyInUse.knownCount r.number
    if allowanceSpent r.allowance.toNat known then n.refuse 15
    else n.acceptCard ⟨r.number, r.cls, some r.band, known.isNone, n.now⟩

/-- The card whose own acceptance is pending has passed steps 1 to 7 (R56): the window restarts, or the amber indication
is shown anew. -/
def Node.presentAgain (n : Node) : Node :=
  if n.hatch.phase = .window then n.withHatch (n.hatch.openWindow n.now)
  else n.withHatch (n.hatch.showStanding n.now)

/-- The press unit takes a crew card in FAULT (R126): a REVERSE of kind RECOVERY starts; with the home switch already
ACTIVE it does not drive (DESIGN CHOICE, log entry 31). -/
def Node.startRecovery (n : Node) : Node :=
  if n.press.state = .fault then
    let p := n.press.startReverse n.now .recovery
    let p := if n.press.homeSwitch = .active then { p with drive := none, lastDirection := n.press.lastDirection } else p
    ((n.withPress p).abandonSounding).noticeCheck
  else n

/-- A window or deferred release is held for another card, or the hatch is not free for a crew window (R60). -/
def Node.crewBusy (n : Node) (card : CardNumber) : Bool :=
  !n.hatchClosed || !n.liftSeated || n.hatch.phase == .deposit || n.hatch.phase == .crewOpening ||
    n.hatch.phase == .forcedOpening ||
    ((n.hatch.phase == .window || n.hatch.phase == .deferred) && !n.hatch.ownPending card)

/-- The crew window (R60): none with the press away (32) or the hatch busy (30); the same card's window restarts; else a
crew acceptance opens one. -/
def Node.crewWindow (n : Node) (card : CardNumber) : Node :=
  if n.pressHome = false then n.refuse 32
  else if n.crewBusy card then n.refuse 30
  else if n.hatch.phase = .window then n.withHatch (n.hatch.openWindow n.now)
  else n.withHatch (({ n.hatch with acceptance := some ⟨card, .crew, none, false, n.now⟩ }).openWindow n.now)

/-- Service handling of a crew card (R60): the service period first, then the crew window; in OUT OF SERVICE the card is
passed to the press unit (R46). -/
def Node.serviceHandling (n : Node) (card : CardNumber) : Node :=
  let n := (n.beginService card).crewWindow card
  if n.hatch.station = .outOfService then n.startRecovery else n

/-- Steps 2 to 12 of card evaluation (R51). -/
def Node.judgeCard (n : Node) (card : CardNumber) : Node :=
  if n.cards.isRevoked card then n.refuseEarly card 11
  else
    match n.cards.lookup card with
    | none => n.refuseEarly card 12
    | some r =>
      if r.status = .suspended then n.refuseEarly card 13
      else if r.cls = .crew then n.serviceHandling card
      else if n.hatch.station = .safe ∨ n.hatch.station = .outOfService then n.refuseEarly card 90
      else if r.rights.getLsbD n.control.settings.fraction.code = false then n.refuseEarly card 14
      else if n.hatch.ownPending card then n.presentAgain
      else n.judgeDeposit r

/-- Card evaluation (R51): a station in STARTING refuses; while the card table is scanned the lookup waits (R28). -/
def Node.evaluateCard (n : Node) (card : CardNumber) : Node :=
  if n.hatch.station = .starting then n.refuseEarly card 91
  else if n.cards.phase = .scanning then n.withHatch { n.hatch with evaluating := some card }
  else n.judgeCard card

/-- The read repeats the last one within 2 s (R50). -/
def Hatch.isRepeat (h : Hatch) (card : CardNumber) (now : Moment) : Bool :=
  match h.lastRead with
  | some l => l.card == card && decide (now - l.readAt < repeatSuppression)
  | none => false

/-- A card number is delivered (R50): discarded while another read is evaluated, ignored as a repeat, or evaluated. -/
def Node.cardRead (n : Node) (card : CardNumber) : Node :=
  if n.hatch.evaluating.isSome then n
  else
    let ignored := n.hatch.isRepeat card n.now
    let n := n.withHatch { n.hatch with lastRead := some ⟨card, n.now⟩ }
    if ignored then n else (n.evaluateCard card).pressTrigger

/-- CARD_READ (R50 to R60). -/
def execCardRead (dt : Nat) (card : CardNumber) (s : State) : Host.Outcome State Fault Refusal :=
  s.perform dt (fun n => n.whenStation (fun n => n.cardRead card))

/-- READ_ERROR (R50): code 19 is shown; discarded while another read is evaluated. -/
def execReadError (dt : Nat) (s : State) : Host.Outcome State Fault Refusal :=
  s.perform dt (fun n => n.whenStation (fun n =>
    if n.hatch.evaluating.isSome then n else n.withHatch (n.hatch.show n.now .presentAgain)))

/-! ### The window and its timers (R57 to R59, R47, R65, R66) -/

/-- The window lapses (R57), and the trigger is evaluated (R112). -/
def Node.windowExpiry (n : Node) : Node :=
  match n.hatch.window with
  | none => n
  | some t =>
    let n := n.reach t
    (n.withHatch n.hatch.endRelease).pressTrigger

/-- WINDOW_EXPIRY (R57). -/
def execWindowExpiry (dt : Nat) (s : State) : Host.Outcome State Fault Refusal :=
  s.perform dt (fun n => n.whenStation Node.windowExpiry)

/-- The pull-in ends: HOLD (R58). -/
def Node.pullInEnd (n : Node) : Node :=
  match n.hatch.lock with
  | .pullIn t =>
    let n := n.reach t
    n.withHatch { n.hatch with lock := .hold }
  | _ => n

/-- LOCK_PULL_IN_END (R58). -/
def execLockPullInEnd (dt : Nat) (s : State) : Host.Outcome State Fault Refusal :=
  s.perform dt (fun n => n.whenStation Node.pullInEnd)

/-- The deferred release lapses with code 31 (R59). -/
def Node.deferredExpiry (n : Node) : Node :=
  match n.hatch.deferred with
  | none => n
  | some t =>
    let n := n.reach t
    n.withHatch (n.hatch.endRelease.show n.now (.refusal 31))

/-- DEFERRED_RELEASE_EXPIRY (R59). -/
def execDeferredReleaseExpiry (dt : Nat) (s : State) : Host.Outcome State Fault Refusal :=
  s.perform dt (fun n => n.whenStation Node.deferredExpiry)

/-- The service period runs out (R47), and the trigger is evaluated (R112). -/
def Node.serviceExpiry (n : Node) : Node :=
  match n.hatch.service with
  | none => n
  | some p => ((n.reach p.ends).endService).pressTrigger

/-- SERVICE_PERIOD_EXPIRY (R47). -/
def execServicePeriodExpiry (dt : Nat) (s : State) : Host.Outcome State Fault Refusal :=
  s.perform dt (fun n => n.whenStation Node.serviceExpiry)

/-- A 4 s indication ends: the standing one is shown again, or the panel goes dark (R66). -/
def Node.indicationExpiry (n : Node) : Node :=
  match n.hatch.panel with
  | none => n
  | some p =>
    match p.ends with
    | none => n
    | some t =>
      let n := n.reach t
      n.withHatch (n.hatch.showStanding n.now)

/-- INDICATION_EXPIRY (R66). -/
def execIndicationExpiry (dt : Nat) (s : State) : Host.Outcome State Fault Refusal :=
  s.perform dt (fun n => n.whenStation Node.indicationExpiry)

/-- What follows a tone that ends at `now` (R65): a tone of 150 ms after an interval, which is a free value (DESIGN CHOICE,
log entry 17), or silence. -/
def buzzerAfter (toFollow : Nat) (now : Moment) : Buzzer :=
  if toFollow = 0 then .silent
  else .tone (toFollow - 1) (now + Config.toneGap) (now + Config.toneGap + toneLength)

/-- A tone ends, 150 ms after it began (R65). -/
def Node.toneEnd (n : Node) : Node :=
  match n.hatch.buzzer with
  | .tone toFollow _ ends =>
    let n := n.reach ends
    n.withHatch { n.hatch with buzzer := buzzerAfter toFollow n.now }
  | _ => n

/-- BUZZER_TONE_END (R65). -/
def execBuzzerToneEnd (dt : Nat) (s : State) : Host.Outcome State Fault Refusal :=
  s.perform dt (fun n => n.whenStation Node.toneEnd)

/-! ### The hatch switch (R48, R61, R62, R64) -/

/-- The press unit hears of a hatch that reads open or a lift that reads lifted (R123, R125); with no press fitted there is
none (R128). -/
def Node.interruptPress (n : Node) : Node :=
  if n.control.settings.pressFitted then n.withPress (n.press.interrupt n.now) else n

/-- The hatch settles for the first time (R48): no opening and no closing; settled OPEN the open timer runs and the phase
is FORCED OPENING without a record. -/
def Node.hatchSettles (n : Node) (isOpen : Bool) (reading : Option Int) : Node :=
  if n.hatch.hatch = .unsettled then
    if isOpen then
      n.withHatch { n.hatch with hatch := .opened, openSince := some n.now, phase := .forcedOpening }
    else ((n.withHatch { n.hatch with hatch := .closed }).trySounding reading).pressTrigger
  else n

/-- HATCH_SETTLED (R48). -/
def execHatchSettled (dt : Nat) (isOpen : Bool) (reading : Option Int) (s : State) :
    Host.Outcome State Fault Refusal :=
  s.perform dt (fun n => n.whenStation (fun n => n.hatchSettles isOpen reading))

/-- A forced opening (R61): the FORCED record with the time and the fill value, and the forced indication. -/
def Node.forcedOpening (n : Node) : Node :=
  (n.withHatch (({ n.hatch with phase := .forcedOpening }).show n.now .forced)).requestRecord .forced n.sounding.fill

/-- The acceptance held is a crew acceptance (R55). -/
def Hatch.crewAccepted (h : Hatch) : Bool := match h.acceptance with | some a => a.cls == .crew | none => false

/-- What an opening does by hatch phase (R61). -/
def Node.openByPhase (n : Node) : Node :=
  match n.hatch.phase with
  | .window => n.withHatch (n.hatch.leaveWindow (if n.hatch.crewAccepted then .crewOpening else .deposit))
  | .deferred => (n.withHatch n.hatch.endRelease).forcedOpening
  | .idle => n.forcedOpening
  | .deposit | .crewOpening | .forcedOpening => n

/-- The debounced hatch state changes to OPEN (R61): the open timer starts, a sounding in flight is abandoned (R22) and
the press is interrupted or paused (R123, R125). -/
def Node.hatchOpens (n : Node) : Node :=
  if n.hatch.hatch = .closed then
    let n := (n.withHatch { n.hatch with hatch := .opened, openSince := some n.now }).openByPhase
    ((n.abandonSounding).interruptPress).pressTrigger
  else n

/-- HATCH_OPEN (R61). -/
def execHatchOpen (dt : Nat) (s : State) : Host.Outcome State Fault Refusal :=
  s.perform dt (fun n => n.whenStation Node.hatchOpens)

/-- What a closing does by hatch phase (R62). -/
def Node.closeByPhase (n : Node) : Node :=
  match n.hatch.phase with
  | .deposit =>
    let n := n.completeDeposit
    n.withHatch { n.hatch with acceptance := none, phase := .idle }
  | .crewOpening => n.withHatch { n.hatch with acceptance := none, phase := .idle }
  | .forcedOpening => n.withHatch { n.hatch with phase := .idle }
  | .idle | .window | .deferred => n

/-- The debounced hatch state changes to CLOSED (R62): the open timer stops, HATCH STUCK is cleared, a paused reverse goes
on, a held sounding may start and the trigger is evaluated. -/
def Node.hatchCloses (n : Node) (reading : Option Int) : Node :=
  if n.hatch.hatch = .opened then
    let n := (n.withHatch { n.hatch with hatch := .closed, openSince := none, stuck := false }).noticeCheck
    (((n.closeByPhase).resumePress).trySounding reading).pressTrigger
  else n

/-- HATCH_CLOSED (R62, R63). -/
def execHatchClosed (dt : Nat) (reading : Option Int) (s : State) : Host.Outcome State Fault Refusal :=
  s.perform dt (fun n => n.whenStation (fun n => n.hatchCloses reading))

/-- The open timer reaches 90 s (R64). -/
def Node.hatchSticks (n : Node) : Node :=
  match n.hatch.openSince with
  | none => n
  | some t =>
    if n.hatch.stuck then n
    else
      let n := n.reach (t + stuckLength)
      (n.withHatch { n.hatch with stuck := true }).noticeCheck

/-- HATCH_STUCK (R64). -/
def execHatchStuck (dt : Nat) (s : State) : Host.Outcome State Fault Refusal :=
  s.perform dt (fun n => n.whenStation Node.hatchSticks)

/-! ### The lift switch (R49, R170, R171) -/

/-- The lift settles for the first time: no lift and no seat (R49). -/
def Node.liftSettles (n : Node) (isLifted : Bool) (reading : Option Int) : Node :=
  if n.hatch.lift = .unsettled then
    if isLifted then n.withHatch { n.hatch with lift := .lifted }
    else ((n.withHatch { n.hatch with lift := .seated }).trySounding reading).pressTrigger
  else n

/-- LIFT_SETTLED (R49). -/
def execLiftSettled (dt : Nat) (isLifted : Bool) (reading : Option Int) (s : State) :
    Host.Outcome State Fault Refusal :=
  s.perform dt (fun n => n.whenStation (fun n => n.liftSettles isLifted reading))

/-- What a lift does by hatch phase (R49). -/
def Node.liftByPhase (n : Node) : Node :=
  match n.hatch.phase with
  | .window => n.withHatch n.hatch.endRelease
  | .deferred => n.withHatch (n.hatch.endRelease.show n.now (.refusal 31))
  | .deposit =>
    let n := n.completeDeposit
    n.withHatch { n.hatch with acceptance := none, phase := .forcedOpening }
  | .crewOpening => n.withHatch { n.hatch with acceptance := none, phase := .forcedOpening }
  | .forcedOpening | .idle => n

/-- The call unit at a lift (R170, R171): the emptying record, announced by a running service period or not, and the
closing of an open call. -/
def Node.liftCall (n : Node) : Node :=
  match n.hatch.service with
  | some p => (n.requestRecord (.emptying p.crew) none).closeCall 0
  | none => (n.requestRecord .unannouncedEmpty none).closeCall 1

/-- The debounced lift state changes from SEATED to LIFTED (R49). -/
def Node.lifts (n : Node) : Node :=
  if n.hatch.lift = .seated then
    let n := (n.withHatch { n.hatch with lift := .lifted }).liftByPhase
    (((n.liftFill).liftCall).interruptPress).pressTrigger
  else n

/-- LIFT (R49, R17, R170, R171). -/
def execLift (dt : Nat) (s : State) : Host.Outcome State Fault Refusal :=
  s.perform dt (fun n => n.whenStation Node.lifts)

/-- The debounced lift state changes from LIFTED to SEATED (R49): a sounding is armed 20 s later (R17), and a paused
reverse goes on (R125). -/
def Node.seats (n : Node) (reading : Option Int) : Node :=
  if n.hatch.lift = .lifted then
    let n := (n.withHatch { n.hatch with lift := .seated }).armSounding seatSoundingDelay
    ((n.resumePress).trySounding reading).pressTrigger
  else n

/-- SEAT (R49, R17). -/
def execSeat (dt : Nat) (reading : Option Int) (s : State) : Host.Outcome State Fault Refusal :=
  s.perform dt (fun n => n.whenStation (fun n => n.seats reading))

end Sys2Proof.Machine
end

