-- ==== Sys2Proof/Machine/CardCommands.lean ====
section
/-! DEFINITION. The meanings of the card table's commands (02): CARD UPDATE and its six operations, the clear's rows and
the end of the start scan. -/

namespace Sys2Proof.Machine

/-- The oldest CARD UPDATE is taken up (R29): in table phase OPEN, when none is being worked. It stays in the receive
buffer until R29 lets it leave. -/
def Node.takeUpdate (n : Node) : Node :=
  match n.cards.phase, n.cards.update, oldestOf .cards n.line.buffer with
  | .opened, none, some r => n.settleUpdate ⟨readOps 3 1 r.telegram.payload, true⟩
  | _, _, _ => n

/-- CARD_UPDATE (R29, R31). -/
def execCardUpdate (dt : Nat) (s : State) : Host.Outcome State Fault Refusal :=
  s.perform dt (fun n => n.whenStation Node.takeUpdate)

/-- ADD (R30, R31). -/
def execAdd (dt : Nat) (s : State) : Host.Outcome State Fault Refusal :=
  s.perform dt (fun n => n.whenStation (fun n => n.workOp Node.workAdd))

/-- REMOVE (R32). -/
def execRemove (dt : Nat) (s : State) : Host.Outcome State Fault Refusal :=
  s.perform dt (fun n => n.whenStation (fun n => n.workOp Node.workRemove))

/-- CLEAR (R33). -/
def execClear (dt : Nat) (s : State) : Host.Outcome State Fault Refusal :=
  s.perform dt (fun n => n.whenStation (fun n => n.workClear .clear .clearing))

/-- REVOKE_ADD (R35). -/
def execRevokeAdd (dt : Nat) (s : State) : Host.Outcome State Fault Refusal :=
  s.perform dt (fun n => n.whenStation (fun n => n.workOp Node.workRevokeAdd))

/-- REVOKE_REMOVE (R35). -/
def execRevokeRemove (dt : Nat) (s : State) : Host.Outcome State Fault Refusal :=
  s.perform dt (fun n => n.whenStation (fun n => n.workOp Node.workRevokeRemove))

/-- REVOKE_CLEAR (R36). -/
def execRevokeClear (dt : Nat) (s : State) : Host.Outcome State Fault Refusal :=
  s.perform dt (fun n => n.whenStation (fun n => n.workClear .revokeClear .revokeClearing))

/-- CLEAR_ROW_WRITE (R33, R36). -/
def execClearRowWrite (dt : Nat) (s : State) : Host.Outcome State Fault Refusal :=
  s.perform dt (fun n => n.whenStation Node.clearRow)

/-- The card evaluation that waited for the scan goes on at step 2 (R28, R50; DEDUCED, log entry 30). -/
def Node.resumeEvaluation (n : Node) : Node :=
  match n.hatch.evaluating with
  | none => n
  | some card => (n.withHatch { n.hatch with evaluating := none }).judgeCard card

/-- The scan of the card and revocation regions has ended (R40, R41): lookups are answered, the start conditions are
evaluated (R45) and the trigger (R112). -/
def Node.cardScanEnd (n : Node) : Node :=
  if n.cards.phase = .scanning then
    let n := (n.withCards (n.store.scanCards n.cards)).resumeEvaluation
    n.evaluateStart.pressTrigger
  else n

/-- CARD_TABLE_SCAN_END (R40, R41). -/
def execCardTableScanEnd (dt : Nat) (s : State) : Host.Outcome State Fault Refusal :=
  s.perform dt (fun n => n.whenStation Node.cardScanEnd)

end Sys2Proof.Machine
end

