-- ==== Sys2Proof/Machine/ClockUnit.lean ====
section
/-! DEFINITION. The station clock (04): the rollover and the setting of the clock by TIME. -/

namespace Sys2Proof.Machine

/-- The items of the append list at a rollover, with the accounting content of the closing day, where `room` is how many
records the log can still hold: a completed DEPOSIT that stands behind as many items as that, and so finds the log full when it
comes to be appended, becomes an overflow deposit and is counted in the overflow counts that pass with the day close (R81, R98;
DESIGN CHOICE, log entry 48). -/
def closeItems : Nat → Accounting → List LogEntry → Accounting × List LogEntry
  | _, a, [] => (a, [])
  | room, a, e :: rest =>
    match e.body, room with
    | .deposit _ charge _ _ _, 0 =>
      let closed := closeItems 0 (a.overflowed charge) rest
      (closed.1, { e with body := .overflowDeposit } :: closed.2)
    | .overflowDeposit, room => ((closeItems room a rest).1, e :: (closeItems room a rest).2)
    | _, room => ((closeItems (room - 1) a rest).1, e :: (closeItems (room - 1) a rest).2)

/-- The deposits of the closing day that will find the log full are counted (R81). -/
def Log.closeOverflow (l : Log) : Log :=
  let closed := closeItems (logCapacity - l.held.length) l.accounting l.appendList
  { l with accounting := closed.1, appendList := closed.2 }

/-- The rollover to `day` (R80), in its order: the day close with the closing day's totals and the time just before; the
new day; "day entered at"; the tally table emptied; the accounting content zeroed with the new day (R97). The call unit
then makes its missed-round test (R166). -/
def Node.rollover (n : Node) (day : Nat) : Node :=
  let n := n.withLog n.log.closeOverflow
  let a := n.log.accounting
  let n := n.requestRecord (.dayClose a.total a.count a.overflowCount) n.sounding.fill
  let n := n.withClock { n.clock with day := day, enteredAt := some n.now }
  let n := n.withTally n.tally.emptied
  let n := n.withLog { n.log with accounting := n.log.accounting.newDay day }
  n.missedRound

/-- The day number after a rollover by hour; 65,535 stays (R80). -/
def Clock.dayByHour (c : Clock) : Nat := dayAfter c.day

/-- The present day number has been in force for more than 12 h (R78): entered at START, or longer ago. -/
def Clock.dayHeld (c : Clock) (now : Moment) : Bool :=
  match c.enteredAt with
  | none => true
  | some t => decide (dayHold < now - t)

/-- The rollover instant, in seconds of day (R77). -/
def Node.rolloverInstant (n : Node) : Nat := n.control.settings.rolloverHour * 3600

/-- One second of a SET clock (R78): the seconds advance, wrapping at 86,400, and on reaching the rollover instant by
running the day rolls over, if it has been in force for more than 12 h. The trigger is evaluated when the seconds enter
the press hours (R112). -/
def Node.clockSecond (n : Node) : Node :=
  match n.clock.seconds with
  | none => n
  | some s =>
    let next := if s + 1 = daySeconds then 0 else s + 1
    let before := n.inPressHours
    let n := if next = n.rolloverInstant ∧ n.clock.dayHeld n.now = true then n.rollover n.clock.dayByHour else n
    let n := n.withClock { n.clock with seconds := some next }
    if n.inPressHours && !before then n.pressTrigger else n

/-- The seconds of day as a TIME of the clock's own day leaves them (R79): taken in UNSET, and in SET when they differ by
more than 2. -/
def timeSeconds (clock : Option Nat) (seconds : Nat) : Nat :=
  match clock with
  | none => seconds
  | some s => if 2 < absDiff s seconds then seconds else s

/-- A TIME reaches the clock (R79): ignored with seconds of 86,400 or more or a day below the clock's; a later day rolls
over to it. The trigger is evaluated when the clock is set (R112). -/
def Node.takeTime (n : Node) (day seconds : Nat) : Node :=
  if daySeconds ≤ seconds ∨ day < n.clock.day then n
  else if n.clock.day < day then
    let n := n.rollover day
    (n.withClock { n.clock with seconds := some seconds }).pressTrigger
  else
    let set := timeSeconds n.clock.seconds seconds
    if n.clock.seconds = some set then n
    else (n.withClock { n.clock with seconds := some set }).pressTrigger

end Sys2Proof.Machine
end

