-- ==== Sys2Proof/Machine/ClockCommands.lean ====
section
/-! DEFINITION. The meanings of the commands of the tally unit and the station clock (04). -/

namespace Sys2Proof.Machine

/-- A heard TALLY NOTICE (R74): ignored for another fraction or another day, else counted, or dropped and counted as a
loss. Card number, fraction, day (12.1). -/
def Node.hearTally (n : Node) (r : Received) : Node :=
  if field r.telegram.payload 4 1 = n.control.settings.fraction.code ∧ field r.telegram.payload 5 2 = n.clock.day then
    match n.tally.countHeard (BitVec.ofNat 32 (field r.telegram.payload 0 4)) with
    | some t => n.withTally t
    | none => n.withTally n.tally.lose
  else n

/-- TALLY_NOTICE (R74): taken once the rebuild of the start has ended (R76, R145). -/
def execTallyNotice (dt : Nat) (s : State) : Host.Outcome State Fault Refusal :=
  s.perform dt (fun n => n.whenStation (fun n =>
    if n.tally.rebuilt then n.taking .tallyNotice Node.hearTally else n))

/-- CLOCK_SECOND (R78, R80). -/
def execClockSecond (dt : Nat) (s : State) : Host.Outcome State Fault Refusal :=
  s.perform dt (fun n => n.whenStation Node.clockSecond)

/-- A TIME taken from the receive buffer (R79): day, seconds of day (12.1). A relay in SAFE takes it too, and it changes
nothing there (R183). -/
def Node.hearTime (n : Node) (r : Received) : Node :=
  match n.control.settings.role with
  | .station => n.takeTime (field r.telegram.payload 0 2) (field r.telegram.payload 2 3)
  | .relay => n

/-- TIME (R79, R80): a station takes it once the log's start scan has ended (R77, R145). -/
def execTime (dt : Nat) (s : State) : Host.Outcome State Fault Refusal :=
  s.perform dt (fun n => n.whenLive (fun n =>
    if n.control.settings.role = .relay ∨ n.log.phase = .opened then n.taking .time Node.hearTime else n))

end Sys2Proof.Machine
end

