-- ==== Sys2Proof/Machine/StatusUnit.lean ====
section
/-! DEFINITION. The class-3 telegrams of a station: HARVEST ANSWER (05) and STATUS ANSWER (11, 12.2), and their admission
to the transmit queue. -/

namespace Sys2Proof.Machine

/-! ### HARVEST ANSWER (R101, R104) -/

/-- The record held with a sequence number. -/
def recordHeld (held : List LogRecord) (q : Sequence) : Option LogRecord := held.find? (fun r => r.seq == q)

/-- A sequence lies beyond the end of a harvest (R100): there is no end, or it comes after it. -/
def beyondEnd (stop : Option Sequence) (q : Sequence) : Bool :=
  match stop with
  | none => true
  | some w => decide (1 ≤ seqDistance w q ∧ seqDistance w q ≤ 8388607)

/-- Up to `k` records from `q` onward: as far as they are held and not beyond the end (R101). -/
def recordsFrom (held : List LogRecord) (stop : Option Sequence) : Nat → Sequence → List LogRecord
  | 0, _ => []
  | k + 1, q =>
    if beyondEnd stop q then []
    else
      match recordHeld held q with
      | none => []
      | some r => r :: recordsFrom held stop k (q + 1)

/-- The sequence that comes `k` records after `q`. -/
def seqAfter (q : Sequence) (k : Nat) : Sequence := q + BitVec.ofNat 24 k

/-- The payload of a HARVEST ANSWER (12.1): request tag, control with GAP in bit 0 and LAST in bit 1, first sequence,
records. Bits 2 to 7 of the control byte, to which 12.1 gives no meaning, are 0 (DESIGN CHOICE, log entry 52). -/
def harvestPayload (tag : Nat) (gap last : Bool) (first : Sequence) (records : List LogRecord) : List Byte :=
  [BitVec.ofNat 8 tag, BitVec.ofNat 8 (bit gap 0 + bit last 1)] ++ bytesOf 3 first.toNat ++
    records.flatMap (fun r => r.entry.bytes)

/-- The answer has reached its end after `records` (R100, R101, R104): remaining is 0, the next record lies beyond the
end, or it is not held any more. -/
def harvestDone (held : List LogRecord) (h : Harvest) (records : List LogRecord) : Bool :=
  decide (h.remaining ≤ records.length) || beyondEnd h.stop (seqAfter h.next records.length) ||
    (recordHeld held (seqAfter h.next records.length)).isNone

/-- The next telegram of the harvest in flight is built and enters the transmit queue (R101). -/
def Node.buildHarvest (n : Node) : Node :=
  match n.log.harvest with
  | none => n
  | some h =>
    match h.out with
    | some _ => n
    | none =>
      let records := recordsFrom n.log.held h.stop (min 3 h.remaining) h.next
      let last := harvestDone n.log.held h records
      let t := n.telegram .harvestAnswer toRelay (harvestPayload h.tag h.gap last h.next records)
      let after := { h with
        next := seqAfter h.next records.length
        remaining := h.remaining - records.length
        gap := false
        out := some last }
      (n.enqueue .depositLog t).withLog { n.log with harvest := some after }

/-! ### STATUS ANSWER (R191, 12.2) -/

/-- The line counters in R146's order, two bytes each (12.2). -/
def LineCounters.bytes (c : LineCounters) : List Byte :=
  bytesOf 2 c.checkFailures ++ bytesOf 2 c.overruns ++ bytesOf 2 c.collisionDrops ++ bytesOf 2 c.queueDrops ++
    bytesOf 2 c.unknownKinds ++ bytesOf 2 c.addressClashes

/-- Part 1 of a station's STATUS ANSWER, 31 bytes (12.2). -/
def Node.statusPart1 (n : Node) (tag : Nat) : List Byte :=
  let round := if n.call.state = .scheduled then n.call.round else none
  [BitVec.ofNat 8 tag, 0x21#8, 0#8, BitVec.ofNat 8 n.hatch.station.code, BitVec.ofNat 8 n.control.cause.code] ++
    bytesOf 2 n.stationFlags ++ [BitVec.ofNat 8 n.line.polarity.code] ++ bytesOf 2 (fillCode n.sounding.fill) ++
    [BitVec.ofNat 8 (resultCode n.sounding.last)] ++ bytesOf 2 (n.sounding.median.getD 65535) ++
    [BitVec.ofNat 8 n.call.state.code, BitVec.ofNat 8 (n.call.tag.getD 255)] ++
    bytesOf 2 ((round.map (·.1)).getD 65535) ++ [BitVec.ofNat 8 ((round.map (·.2)).getD 255)] ++
    [BitVec.ofNat 8 (bit n.clock.seconds.isSome 0)] ++ bytesOf 2 n.clock.day ++
    bytesOf 3 (n.clock.seconds.getD 16777215) ++ bytesOf 3 n.log.accounting.total ++
    bytesOf 2 n.log.accounting.count ++ bytesOf 2 n.log.accounting.overflowCount

/-- The sequence of a held record, or the next sequence number when there is none (R191). -/
def heldOrNext (n : Node) (r : Option LogRecord) : Sequence :=
  match r with
  | some x => x.seq
  | none => n.log.accounting.next

/-- Part 2 of a station's STATUS ANSWER, 40 bytes (12.2); the table check value goes high byte first, as 12 carries the check
values. -/
def Node.statusPart2 (n : Node) (tag : Nat) : List Byte :=
  [BitVec.ofNat 8 tag, 0x22#8] ++ bytesOf 2 n.cards.entries ++ checkBytes n.cards.checkValue ++
    bytesOf 1 n.cards.revocations ++ bytesOf 2 n.tally.entries.length ++ bytesOf 2 n.tally.loss ++
    bytesOf 2 n.log.held.length ++ bytesOf 3 (heldOrNext n n.log.held.head?).toNat ++
    bytesOf 3 (heldOrNext n n.log.held.getLast?).toNat ++ bytesOf 2 n.log.lost ++
    bytesOf 3 n.log.accounting.hatchCycles ++ bytesOf 2 n.log.accounting.pressCycles ++ bytesOf 2 n.call.stale ++
    n.line.counters.bytes

/-- The store scan is done (R45, R190). -/
def Node.scanDone (n : Node) : Bool := n.cards.phase != .scanning && n.log.phase == .opened

/-- The next part of the pending status answer is built, with every value as it stands, and enters the transmit queue
(R190). -/
def Node.buildStatus (n : Node) : Node :=
  match n.control.answer with
  | none => n
  | some a =>
    if a.out then n
    else
      let payload := if a.part = 1 then n.statusPart1 a.tag else n.statusPart2 a.tag
      (n.enqueue .status (n.telegram .statusAnswer toRelay payload)).withControl
        { n.control with answer := some { a with out := true } }

/-! ### Admission (R140) -/

/-- A producer has a telegram to offer (R101, R190). -/
def Node.producing (n : Node) (p : Producer) : Bool :=
  match p with
  | .harvest => match n.log.harvest with | some h => h.out.isNone | none => false
  | .status => (match n.control.answer with | some a => !a.out | none => false) && n.scanDone

/-- A producer's telegram is built as it enters the queue (R140). -/
def Node.produce (n : Node) (p : Producer) : Node :=
  match p with
  | .harvest => n.buildHarvest
  | .status => n.buildStatus

/-- A class-3 offer (R140): it enters when a place is free and no other waits, else it waits with its producer, which
holds its place among those that wait. -/
def Node.offerClass3 (n : Node) (p : Producer) : Node :=
  if n.producing p then
    if n.line.waiting.contains p then n
    else if n.line.waiting.isEmpty && n.queueHasRoom then n.produce p
    else n.withLine { n.line with waiting := n.line.waiting ++ [p] }
  else n

/-- A place has freed: the oldest waiting class-3 offer enters (R140). -/
def Node.admitWaiting (n : Node) : Node :=
  match n.line.waiting with
  | [] => n
  | p :: rest =>
    if n.queueHasRoom then (n.withLine { n.line with waiting := rest }).produce p else n

/-- An owner drops what it had in the transmit queue: the entries stay and are sent, but their outcome reaches no one
(R102, R190). Its offer that waits for a place is withdrawn, so the answer that takes its stead waits anew, behind the
others, and does not keep that place; R131 and R140 say nothing of it (DESIGN CHOICE, log entry 49). -/
def Node.disown (n : Node) (owner : Owner) (p : Producer) : Node :=
  n.withLine { n.line with
    queue := n.line.queue.map (fun e => if e.owner = owner then { e with owner := .abandoned } else e)
    waiting := n.line.waiting.filter (fun x => x != p) }

/-- A STATUS REQUEST sets the pending status answer of a station (R190): a held answer of which no part has been built
takes the new tag; of which one has, it is abandoned. -/
def Node.requestStatus (n : Node) (tag : Nat) : Node :=
  match n.control.answer with
  | none => n.withControl { n.control with answer := some ⟨tag, 1, false⟩ }
  | some a =>
    if a.part = 1 ∧ a.out = false then n.withControl { n.control with answer := some ⟨tag, 1, false⟩ }
    else (n.disown .status .status).withControl { n.control with answer := some ⟨tag, 1, false⟩ }

/-- A HARVEST REQUEST fixes a harvest in flight, in place of any earlier one (R100, R102): `f` the from-sequence, `m` the
maximum. -/
def Node.fixHarvest (n : Node) (tag : Nat) (f : Sequence) (m : Nat) : Node :=
  let n := n.disown .depositLog .harvest
  let older := placeOf n.log.held f = .olderThanOldest
  let next := if older then (match n.log.held.head? with | some o => o.seq | none => f) else f
  let fixed : Harvest := ⟨tag, n.log.committed, next, decide older, if m = 0 then 1 else min 30 m, none⟩
  n.withLog { n.log with harvest := some fixed }

end Sys2Proof.Machine
end

