-- ==== Sys2Proof/Machine/RelayUnit.lean ====
section
/-! DEFINITION. The relay unit (10): the depot port, the two queues, the outstanding request table, NO ANSWER, the relay
clock and the relay's own status answer. -/

namespace Sys2Proof.Machine

/-! ### Counters (R183, R146) -/

/-- A framed telegram of the wrong kind, length or address counts among the line counters (R176, R179). -/
def Node.countUnknownKind (n : Node) : Node :=
  n.withLine { n.line with counters :=
    { n.line.counters with unknownKinds := satAdd top16 n.line.counters.unknownKinds 1 } }

/-- A depot frame is discarded, or fails its check value (R183). -/
def Node.countDepotFailure (n : Node) : Node :=
  n.withRelay { n.relay with checkFailures := satAdd top16 n.relay.checkFailures 1 }

/-! ### From the line to the depot (R178, R181) -/

/-- A telegram takes its place at the end of the line-to-depot queue, or is dropped and counted when it is full (R178). -/
def Node.toDepot (n : Node) (t : Telegram) : Node :=
  if n.relay.lineToDepot.length < relayCapacity then
    n.withRelay { n.relay with lineToDepot := n.relay.lineToDepot ++ [t] }
  else n.withRelay { n.relay with drops := satAdd top16 n.relay.drops 1 }

/-- A NO ANSWER is built for an outstanding entry (R181, 12.1): it is counted, and takes its place in the queue. -/
def Node.noAnswer (n : Node) (o : Outstanding) : Node :=
  (n.withRelay { n.relay with noAnswers := satAdd top16 n.relay.noAnswers 1 }).toDepot
    (n.telegram .noAnswer toRelay [BitVec.ofNat 8 o.dest, BitVec.ofNat 8 o.tag, BitVec.ofNat 8 o.kind.code])

/-- The entry is for this destination and tag; the table holds at most one (R180). -/
def Outstanding.isFor (o : Outstanding) (dest tag : Nat) : Bool := o.dest == dest && o.tag == tag

/-- The table without the entry of a destination and tag. -/
def withoutRequest (dest tag : Nat) (table : List Outstanding) : List Outstanding :=
  table.filter (fun o => !o.isFor dest tag)

/-- The entry of a destination, tag and kind. -/
def findRequest (dest tag : Nat) (kind : Kind) (table : List Outstanding) : Option Outstanding :=
  table.find? (fun o => o.isFor dest tag && o.kind == kind)

/-- The entries of a destination and tag enter TIMING, or go on in it, with 5 s from `now` (R180, R181). -/
def timeRequest (dest tag : Nat) (now : Moment) (table : List Outstanding) : List Outstanding :=
  table.map (fun o => if o.isFor dest tag then { o with timer := some (now + answerLength) } else o)

/-- The kind of request that a telegram answers (R181). -/
def Telegram.answers (t : Telegram) : Option Kind :=
  match t.kind with
  | .statusAnswer => some .statusRequest
  | .harvestAnswer => some .harvestRequest
  | _ => none

/-- A HARVEST ANSWER without LAST, bit 1 of its control byte (12.1). -/
def Telegram.isPartial (t : Telegram) : Bool := t.kind == .harvestAnswer && field t.payload 1 1 / 2 % 2 == 0

/-- A telegram entering the line-to-depot queue from the line is matched against the table (R181). -/
def Node.matchRequest (n : Node) (t : Telegram) : Node :=
  match t.answers with
  | none => n
  | some kind =>
    match findRequest t.sender (field t.payload 0 1) kind n.relay.outstanding with
    | none => n
    | some o =>
      let table :=
        if t.isPartial then timeRequest o.dest o.tag n.now n.relay.outstanding
        else withoutRequest o.dest o.tag n.relay.outstanding
      n.withRelay { n.relay with outstanding := table }

/-- A line telegram for the depot (R178): matched and queued, or dropped, counted and not matched when the queue is
full. -/
def Node.forwardToDepot (n : Node) (t : Telegram) : Node :=
  if n.relay.lineToDepot.length < relayCapacity then (n.matchRequest t).toDepot t else n.toDepot t

/-! ### The relay clock (R182) -/

/-- A TIME sets the relay clock and restarts the origination timer; one of 86,400 seconds or more leaves both as they
were (R182). -/
def Node.setRelayClock (n : Node) (t : Telegram) : Node :=
  if field t.payload 2 3 < daySeconds then
    n.withRelay { n.relay with
      clock := some ⟨field t.payload 0 2, field t.payload 2 3⟩
      origination := some (n.now + originationLength) }
  else n

/-- The TIME of a day and seconds of day, to ALL (R182, 12.1). -/
def Node.timeTelegram (n : Node) (c : RelayClock) : Telegram :=
  n.telegram .time toAll (bytesOf 2 c.day ++ bytesOf 3 c.seconds)

/-- The relay clock after one more second: at 86,400 the seconds return to 0 and the day is kept (R182). -/
def RelayClock.tick (c : RelayClock) : RelayClock :=
  { c with seconds := if c.seconds + 1 = daySeconds then 0 else c.seconds + 1 }

/-! ### The relay's own telegrams (R178, R179, R190, R191) -/

/-- A relay's STATUS ANSWER, 33 bytes (12.2). With the clock UNSET the day is a free value (DESIGN CHOICE, log
entry 21) and the seconds are unknown. -/
def Node.relayStatus (n : Node) (tag : Nat) : List Byte :=
  [BitVec.ofNat 8 tag, 0x11#8, 1#8, BitVec.ofNat 8 n.control.cause.code] ++ bytesOf 2 n.relayFlags ++
    [BitVec.ofNat 8 n.line.polarity.code, BitVec.ofNat 8 (bit n.relay.clock.isSome 0)] ++
    bytesOf 2 (match n.relay.clock with | some c => c.day | none => (Config.relayUnsetDay n.fresh).toNat) ++
    bytesOf 3 (match n.relay.clock with | some c => c.seconds | none => 16777215) ++ n.line.counters.bytes ++
    bytesOf 2 n.relay.checkFailures ++ bytesOf 2 n.relay.overruns ++ bytesOf 2 n.relay.drops ++
    bytesOf 2 n.relay.noAnswers

/-- The relay builds its single answer at once and places it in its line-to-depot queue; the pending answer is removed
at that moment (R190). -/
def Node.answerRelayStatus (n : Node) (tag : Nat) : Node :=
  let t := n.telegram .statusAnswer toRelay (n.relayStatus tag)
  let n := { n with fresh := if n.relay.clock.isSome then n.fresh else n.fresh + 1 }
  n.toDepot t

/-- A telegram addressed to the relay itself that is not forwarded (R178, R179): TIME sets the relay clock; STATUS
REQUEST and RESTART wait in the receive buffer for the configuration and status unit (R189, R190). -/
def Node.relayOwn (n : Node) (t : Telegram) : Node :=
  if t.kind = .time then n.setRelayClock t else n.receive t

/-- The kinds that the relay acts on when they are addressed to itself (R178, R179). -/
def Kind.isRelayOwn : Kind → Bool
  | .time => true
  | .statusRequest => true
  | .restart => true
  | _ => false

/-- A line telegram that has passed the checks, at a relay in RUNNING (R178). -/
def Node.relayTake (n : Node) (t : Telegram) : Node :=
  if t.dest = n.ownAddress ∧ t.kind.isRelayOwn = true then n.relayOwn t
  else if t.dest = n.ownAddress ∨ t.dest = toRelay then n.forwardToDepot t
  else n

/-! ### From the depot to the line (R176, R179) -/

/-- The depot kinds (R176). -/
def Kind.isDepotKind : Kind → Bool
  | .callAnswer => true
  | .time => true
  | .statusRequest => true
  | .harvestRequest => true
  | .harvestConfirm => true
  | .cardUpdate => true
  | .restart => true
  | _ => false

/-- RTS from the count of the depot-to-line queue (R179): deasserted at 12, asserted again at 8, else as it is. -/
def rtsAt (count : Nat) (rts : Bool) : Bool := if 12 ≤ count then false else if count ≤ 8 then true else rts

/-- A depot telegram for the line takes its place in the depot-to-line queue, or is an overrun (R179). A TIME entering
the queue sets the relay clock too. -/
def Node.fromDepot (n : Node) (t : Telegram) : Node :=
  if n.relay.depotToLine.length < relayCapacity then
    let n := n.withRelay { n.relay with
      depotToLine := n.relay.depotToLine ++ [t]
      rts := rtsAt (n.relay.depotToLine.length + 1) n.relay.rts }
    if t.kind = .time then n.setRelayClock t else n
  else n.withRelay { n.relay with overruns := satAdd top16 n.relay.overruns 1 }

/-- A framed telegram (R176, R179). Its check value is taken over the characters before the last two of the frame, whatever
its payload length says (DESIGN CHOICE, log entry 44). -/
def Node.depotTelegram (n : Node) (bytes : List Byte) : Node :=
  if checkAgrees bytes then
    match readTelegram bytes with
    | none => n.countUnknownKind
    | some t =>
      if t.kind.isDepotKind = false then n.countUnknownKind
      else if t.dest = n.ownAddress then
        if t.kind.isRelayOwn then n.relayOwn t else n.countUnknownKind
      else n.fromDepot t
  else n.countDepotFailure

/-- The depot receiver disregards characters up to the next start character (R176). -/
def Node.huntDepot (n : Node) : Node := n.withRelay { n.relay with receiver := .hunting }

/-- A frame is discarded as a depot check failure (R176). -/
def Node.discardFrame (n : Node) : Node := n.countDepotFailure.huntDepot

/-- One character from the depot (R176). In HUNTING a start character without its stop bit begins no frame and is not counted
(DESIGN CHOICE, log entry 46). -/
def Node.depotChar (n : Node) (c : HeardChar) : Node :=
  match n.relay.receiver with
  | .hunting =>
    if c.stop = true ∧ c.value = 165#8 then n.withRelay { n.relay with receiver := .inFrame [] n.now } else n
  | .inFrame got _ =>
    if c.stop = false then n.discardFrame
    else
      match got with
      | [] =>
        if 7 ≤ c.value.toNat ∧ c.value.toNat ≤ 55 then n.withRelay { n.relay with receiver := .inFrame [c.value] n.now }
        else n.discardFrame
      | len :: chars =>
        if chars.length < len.toNat then
          n.withRelay { n.relay with receiver := .inFrame (got ++ [c.value]) n.now }
        else if c.value = 90#8 then n.huntDepot.depotTelegram chars
        else n.discardFrame

/-- A frame of which more than 20 ms have passed since the last character is discarded (R176). -/
def Node.dropStaleFrame (n : Node) : Node :=
  match n.relay.receiver with
  | .hunting => n
  | .inFrame _ lastAt => if framePause < n.now - lastAt then n.discardFrame else n

/-- The characters of a frame arrive (R176). -/
def Node.depotChars (n : Node) (chars : List HeardChar) : Node := chars.foldl Node.depotChar n.dropStaleFrame

/-! ### Outstanding requests (R180) -/

/-- An offered request creates an outstanding entry in QUEUED (R180): in place of one for the same destination and tag,
whose entry in the transmit queue then reports to no one; with 8 held the oldest is answered NO ANSWER. -/
def Node.createRequest (n : Node) (dest tag : Nat) (kind : Kind) : Node :=
  let queue :=
    n.line.queue.map (fun e => if e.owner = .relayRequest dest tag then { e with owner := .abandoned } else e)
  let n := n.withLine { n.line with queue := queue }
  let rest := withoutRequest dest tag n.relay.outstanding
  let n :=
    if rest.length < outstandingCapacity then n
    else match rest with
      | [] => n
      | oldest :: _ => n.noAnswer oldest
  let rest := if rest.length < outstandingCapacity then rest else rest.drop 1
  n.withRelay { n.relay with outstanding := rest ++ [⟨dest, tag, kind, none⟩] }

/-- The request was sent: its entry enters TIMING (R180). -/
def Node.requestSent (n : Node) (dest tag : Nat) : Node :=
  n.withRelay { n.relay with outstanding := timeRequest dest tag n.now n.relay.outstanding }

/-- The entry is answered NO ANSWER and removed (R180, R181). -/
def Node.requestFails (n : Node) (o : Outstanding) : Node :=
  (n.withRelay { n.relay with outstanding := withoutRequest o.dest o.tag n.relay.outstanding }).noAnswer o

/-- The request was dropped by the line unit (R180). -/
def Node.requestDropped (n : Node) (dest tag : Nat) : Node :=
  match n.relay.outstanding.find? (fun o => o.isFor dest tag) with
  | none => n
  | some o => n.requestFails o

/-- The entry whose answer timer runs out first, with its moment. -/
def firstTiming : List Outstanding → Option (Outstanding × Moment)
  | [] => none
  | o :: rest =>
    match o.timer, firstTiming rest with
    | some t, some (x, u) => if u < t then some (x, u) else some (o, t)
    | some t, none => some (o, t)
    | none, found => found

/-- The oldest telegram of the depot-to-line queue is offered to the line unit (R179): only when the polarity is no longer
UNDETECTED and a place is free, with the relay as its sender. A STATUS REQUEST or HARVEST REQUEST creates an outstanding
entry. -/
def Node.offerFromDepot (n : Node) : Node :=
  match n.relay.depotToLine with
  | [] => n
  | t :: rest =>
    if n.mayTransmit = true ∧ n.queueHasRoom = true then
      let n := n.withRelay { n.relay with depotToLine := rest, rts := rtsAt rest.length n.relay.rts }
      let t := { t with sender := n.ownAddress, island := n.control.settings.island }
      if t.kind = .statusRequest ∨ t.kind = .harvestRequest then
        (n.createRequest t.dest (field t.payload 0 1) t.kind).enqueue (.relayRequest t.dest (field t.payload 0 1)) t
      else n.enqueue .relayUnit t
    else n

/-- The frame on the depot port while the depot transmitter is SENDING (R177). -/
def Node.depotOutput (n : Node) : Option (List Byte) :=
  if n.relay.transmitting then n.relay.lineToDepot.head?.map depotFrameOf else none

end Sys2Proof.Machine
end

