-- ==== Sys2Proof/Machine/LineUnit.lean ====
section
/-! DEFINITION. The line unit (07): polarity, getting on the line, collisions, outcomes told to the owners, and receiving
with the checks and the dispatch. -/

namespace Sys2Proof.Machine

/-! ### Counters and polarity (R133, R134, R146) -/

/-- A reception that ends incomplete or fails its check value (R146). -/
def Node.countCheckFailure (n : Node) : Node :=
  n.withLine { n.line with counters :=
    { n.line.counters with checkFailures := satAdd top16 n.line.counters.checkFailures 1 } }

/-- A reception ends incomplete (R130): a check failure, but while UNDETECTED it is not counted (R133). -/
def Node.receptionFails (n : Node) : Node := if n.mayTransmit then n.countCheckFailure else n

/-- The polarity is fixed until the next start (R133, R134): the timers stop, the inverted-only count is discarded, and a
PENDING call may be offered (R162). -/
def Node.fixPolarity (n : Node) (p : Polarity) : Node :=
  (n.withLine { n.line with polarity := p, silence := none, correction := none, invertedOnly := 0 }).callOffer

/-- PROVISIONAL is entered (R134): the correction timer starts, and a PENDING call may be offered (R162). -/
def Node.enterProvisional (n : Node) : Node :=
  (n.withLine { n.line with
    polarity := .provisional, silence := none, correction := some (n.now + correctionLength), invertedOnly := 0 }).callOffer

/-! ### Getting on the line (R135, R137) -/

/-- The candidate: the first waiting entry in the queue's order (R135, R138). -/
def candidate (queue : List QueueEntry) : Option QueueEntry := queue.find? (fun e => !e.sending)

/-- The wait of a candidate in slots, from its draws (R135, R137): class × 4 + s, and after a collision the backoff
class × 4 + r too. -/
def waitSlots (cls collisions s r : Nat) : Nat :=
  if collisions = 0 then cls * 4 + s else cls * 4 + s + (cls * 4 + r)

/-- The transmitter takes its candidate, draws its wait and defers (R135). A SAFE node transmits nothing (R147). -/
def Node.takeCandidate (n : Node) : Node :=
  if n.mayTransmit = true ∧ n.control.phase ≠ .safe ∧ n.line.transmitter = .idle then
    match candidate n.line.queue with
    | none => n
    | some e =>
      let (n, s) := n.draw 4
      let (n, r) := if e.collisions = 0 then (n, 0) else n.draw (2 ^ min e.collisions 4)
      n.withLine { n.line with
        transmitter := .deferring e.age (n.now + waitSlots e.cls e.collisions s r * deferSlot) e.telegram }
  else n

/-- The line has been without a character for 3 ms (R130, R135): a reception under way ends incomplete, and the
transmitter takes a candidate. -/
def Node.lineIdle (n : Node) : Node :=
  if n.line.transmitter = .sending then n
  else
    let n := if n.line.receiver = .receiving then n.receptionFails else n
    (n.withLine { n.line with receiver := .listening }).takeCandidate

/-- A wait under way is given up (R135). -/
def Transmitter.heard : Transmitter → Transmitter
  | .deferring _ _ _ => .idle
  | t => t

/-- The first character after an idle line is heard (R130, R135); the node's own characters are no reception of
another's (R143). Without an idle line before it a character begins no reception (R130). -/
def Node.receptionBegins (n : Node) : Node :=
  if n.line.transmitter = .sending ∨ n.line.receiver ≠ .listening then n
  else n.withLine { n.line with receiver := .receiving, transmitter := n.line.transmitter.heard }

/-- The wait has run out on an idle line: the candidate is sent, if its entry still waits in the queue with the telegram it
held when it was taken (R135, R136). A candidate that has been displaced, or whose telegram a newer FILL NOTICE has replaced, is
gone: the wait ends without a transmission, and the newer notice, in the place of the older, is considered at the next idle
(R135, R139, R150; DEDUCED, log entry 12). -/
def Node.beginSending (n : Node) (age : Nat) (taken : Telegram) : Node :=
  match n.line.queue.find? (fun e => e.age == age && !e.sending) with
  | none => n.withLine { n.line with transmitter := .idle }
  | some e =>
    if e.telegram = taken then
      n.withLine { n.line with
        queue := n.line.queue.map (fun x => if x.age = age then { x with sending := true } else x)
        transmitter := .sending }
    else n.withLine { n.line with transmitter := .idle }

/-! ### Outcomes (R136, R137, R141) -/

/-- The entry in transmission (R138). -/
def inTransmission (queue : List QueueEntry) : Option QueueEntry := queue.find? (·.sending)

/-- What a node drives on the street line (R133, R134, R136): the characters of a telegram, in the inverted sense or in the
normal one. -/
structure LineDrive where
  chars    : List Byte
  inverted : Bool
  deriving DecidableEq, Repr

/-- The street line output: while SENDING the characters of the entry in transmission, in the adopted sense, which is the
normal one in PROVISIONAL (R130, R133, R134, R136); else the line is left idle. -/
def Node.lineOutput (n : Node) : Option LineDrive :=
  if n.line.transmitter = .sending then
    (inTransmission n.line.queue).map (fun e => ⟨e.telegram.chars, n.line.polarity == .inverted⟩)
  else none

/-- The owner of an entry is told that it was dropped (R141). -/
def Node.tellDropped (n : Node) (e : QueueEntry) : Node :=
  match e.owner with
  | .pressUnit => if e.telegram.kind = .pressClaim then n.claimDropped else n
  | .depositLog => n.harvestFinished
  | .status => n.answerFinished
  | .relayRequest dest tag => n.requestDropped dest tag
  | _ => n

/-- The owner of an entry is told that it was sent (R141). -/
def Node.tellSent (n : Node) (e : QueueEntry) (supplyLow : Bool) : Node :=
  match e.owner with
  | .pressUnit => if e.telegram.kind = .pressClaim then n.claimSent supplyLow else n
  | .depositLog => n.harvestFinished
  | .status => n.answerFinished
  | .relayRequest dest tag => n.requestSent dest tag
  | _ => n

/-- An entry leaves the queue, and the place it frees goes to the oldest waiting class-3 offer (R138, R140). -/
def Node.leaveQueue (n : Node) (e : QueueEntry) : Node :=
  (n.withLine { n.line with queue := withoutAge e.age n.line.queue }).admitWaiting

/-- The entry has collided for the eighth time and is dropped (R137). -/
def Node.dropCollided (n : Node) (e : QueueEntry) : Node :=
  ((n.withLine { n.line with counters :=
    { n.line.counters with collisionDrops := satAdd top16 n.line.counters.collisionDrops 1 } }).leaveQueue e).tellDropped e

/-- The entry returns to waiting in its place with one collision more (R136, R137). -/
def Node.waitAgain (n : Node) (e : QueueEntry) : Node :=
  n.withLine { n.line with queue := n.line.queue.map (fun x =>
    if x.age = e.age then { x with sending := false, collisions := x.collisions + 1 } else x) }

/-- The readback differs from the bit sent (R136, R137, R139): the transmitter stops, and the receiver carries on. A FILL
NOTICE that collides while a newer one waits is removed as replaced. -/
def Node.collide (n : Node) : Node :=
  match n.line.transmitter, inTransmission n.line.queue with
  | .sending, some e =>
    let n := n.withLine { n.line with transmitter := .idle, receiver := .receiving }
    if e.telegram.kind = .fillNotice ∧ n.line.queue.any (·.waitingNotice) = true then n.leaveQueue e
    else if 8 ≤ e.collisions + 1 then n.dropCollided e
    else n.waitAgain e
  | _, _ => n

/-- The last bit is read back as sent (R136): the entry leaves, its owner is told, and what the receiver decoded was the
node's own telegram (R143). -/
def Node.sent (n : Node) (supplyLow : Bool) : Node :=
  match n.line.transmitter, inTransmission n.line.queue with
  | .sending, some e =>
    ((n.withLine { n.line with transmitter := .idle, receiver := .disregarding }).leaveQueue e).tellSent e supplyLow
  | _, _ => n

/-! ### Receiving (R133, R134, R142 to R144) -/

/-- Whether a telegram concerns a station with the address `own` (R144). -/
def concernsStation (own : Nat) (t : Telegram) : Bool :=
  match t.kind with
  | .fillNotice | .tallyNotice | .pressClaim | .pressRelease | .callAnswer | .time => t.dest == toAll
  | .call | .callJoin => t.dest == toRelay
  | .redirectNotice | .statusRequest | .restart | .harvestRequest | .harvestConfirm => t.dest == own
  | .cardUpdate => t.dest == own || t.dest == toAll
  | .callClosed | .statusAnswer | .harvestAnswer | .updateFault | .noAnswer => false

/-- Whether a telegram concerns a node in SAFE (R144, R183, R187): TIME to ALL, and RESTART to its address, if it has
one. -/
def concernsSafe (own : Option Nat) (t : Telegram) : Bool :=
  (t.kind == .time && t.dest == toAll) || (t.kind == .restart && own == some t.dest)

/-- A telegram that has passed the checks is handed on if it concerns the node (R144, R178). -/
def Node.dispatch (n : Node) (t : Telegram) : Node :=
  match n.control.phase with
  | .reading => n
  | .safe => if concernsSafe n.control.settings.address t then n.receive t else n
  | .running =>
    match n.control.settings.role with
    | .station => if concernsStation n.ownAddress t then n.receive t else n
    | .relay => n.relayTake t

/-- Another node's telegram bears the own address (R143): dropped, ADDRESS CLASH set and counted. -/
def Node.addressClash (n : Node) : Node :=
  n.withLine { n.line with
    clash := true
    counters := { n.line.counters with addressClashes := satAdd top16 n.line.counters.addressClashes 1 } }

/-- A telegram whose check value agrees goes on to the remaining checks of R142. -/
def Node.takeGood (n : Node) (bytes : List Byte) : Node :=
  match readTelegram bytes with
  | none => n.countUnknownKind
  | some t => if n.control.settings.address = some t.sender then n.addressClash else n.dispatch t

/-- A reception in the adopted sense (R142): taken when its check value agrees, else a check failure. -/
def Node.takeAdopted (n : Node) (good : Option (List Byte)) : Node :=
  match good with
  | some bytes => n.takeGood bytes
  | none => n.countCheckFailure

/-- A reception while UNDETECTED (R133): the first good one fixes the polarity and goes on; a bad one is not counted. -/
def Node.takeUndetected (n : Node) (normal inverted : Option (List Byte)) : Node :=
  match normal, inverted with
  | some bytes, _ => (n.fixPolarity .normal).takeGood bytes
  | none, some bytes => (n.fixPolarity .inverted).takeGood bytes
  | none, none => n

/-- A reception in PROVISIONAL (R134). -/
def Node.takeProvisional (n : Node) (normal inverted : Option (List Byte)) : Node :=
  match normal, inverted with
  | some bytes, _ => (n.fixPolarity .normal).takeGood bytes
  | none, some bytes =>
    if n.line.invertedOnly = 0 then n.withLine { n.line with invertedOnly := 1 }
    else (n.fixPolarity .inverted).takeGood bytes
  | none, none => n.countCheckFailure

/-- A reception ends (R130, R142): the node's own and what follows a finished telegram are disregarded; every other is
judged by the polarity. -/
def Node.receptionEnds (n : Node) (normal inverted : List HeardChar) : Node :=
  if n.line.transmitter = .sending ∨ n.line.receiver = .disregarding then n
  else
    let n := n.withLine { n.line with receiver := .disregarding, transmitter := n.line.transmitter.heard }
    match n.line.polarity with
    | .undetected => n.takeUndetected (goodReception normal) (goodReception inverted)
    | .provisional => n.takeProvisional (goodReception normal) (goodReception inverted)
    | .normal => n.takeAdopted (goodReception normal)
    | .inverted => n.takeAdopted (goodReception inverted)

end Sys2Proof.Machine
end

