-- ==== Sys2Proof/Machine/LineCommands.lean ====
section
/-! DEFINITION. The meanings of the street line's commands (07). -/

namespace Sys2Proof.Machine

/-- LINE_IDLE (R130, R135). -/
def execLineIdle (dt : Nat) (s : State) : Host.Outcome State Fault Refusal :=
  s.perform dt (fun n => n.whenLive Node.lineIdle)

/-- The wait of the candidate runs out (R135, R136). -/
def Node.deferEnd (n : Node) : Node :=
  match n.line.transmitter with
  | .deferring age ends taken => (n.reach ends).beginSending age taken
  | _ => n

/-- DEFER_WAIT_END (R135, R136). -/
def execDeferWaitEnd (dt : Nat) (s : State) : Host.Outcome State Fault Refusal :=
  s.perform dt (fun n => n.whenLive Node.deferEnd)

/-- COLLISION (R136, R137, R139). -/
def execCollision (dt : Nat) (s : State) : Host.Outcome State Fault Refusal :=
  s.perform dt (fun n => n.whenLive Node.collide)

/-- TRANSMISSION_SENT (R136, R141); `supplyLow` is the supply comparator, read once at a grant (R118). -/
def execTransmissionSent (dt : Nat) (supplyLow : Bool) (s : State) : Host.Outcome State Fault Refusal :=
  s.perform dt (fun n => n.whenLive (fun n => n.sent supplyLow))

/-- RECEPTION_END (R130, R133, R134, R142 to R145, R178). -/
def execReceptionEnd (dt : Nat) (normal inverted : List HeardChar) (s : State) :
    Host.Outcome State Fault Refusal :=
  s.perform dt (fun n => n.whenLive (fun n => n.receptionEnds normal inverted))

/-- RECEPTION_BEGINS (R130, R135). -/
def execReceptionBegins (dt : Nat) (s : State) : Host.Outcome State Fault Refusal :=
  s.perform dt (fun n => n.whenLive Node.receptionBegins)

/-- 5 s have passed without a good reception (R133). -/
def Node.silenceExpiry (n : Node) : Node :=
  match n.line.polarity, n.line.silence with
  | .undetected, some t => (n.reach t).enterProvisional
  | _, _ => n

/-- SILENCE_TIMER_EXPIRY (R133, R134). -/
def execSilenceTimerExpiry (dt : Nat) (s : State) : Host.Outcome State Fault Refusal :=
  s.perform dt (fun n => n.whenLive Node.silenceExpiry)

/-- 60 s have passed in PROVISIONAL: the polarity is NORMAL (R134). -/
def Node.correctionExpiry (n : Node) : Node :=
  match n.line.polarity, n.line.correction with
  | .provisional, some t => (n.reach t).fixPolarity .normal
  | _, _ => n

/-- CORRECTION_TIMER_EXPIRY (R134). -/
def execCorrectionTimerExpiry (dt : Nat) (s : State) : Host.Outcome State Fault Refusal :=
  s.perform dt (fun n => n.whenLive Node.correctionExpiry)

end Sys2Proof.Machine
end

