-- ==== Sys2Proof/Machine/NeighbourCommands.lean ====
section
/-! DEFINITION. The meanings of the neighbour unit's commands (08). -/

namespace Sys2Proof.Machine

/-- The notice timer expires: a FILL NOTICE is offered whatever the comparison gives (R150). -/
def Node.noticeExpiry (n : Node) : Node :=
  match n.neighbour.phase, n.neighbour.timer with
  | .active, some t => (n.reach t).offerNotice
  | _, _ => n

/-- NOTICE_TIMER_EXPIRY (R150). -/
def execNoticeTimerExpiry (dt : Nat) (s : State) : Host.Outcome State Fault Refusal :=
  s.perform dt (fun n => n.whenStation Node.noticeExpiry)

/-- A heard FILL NOTICE (R152): discarded when its payload fails the check, else into the table. -/
def Node.hearNotice (n : Node) (r : Received) : Node :=
  match viewOf r.telegram r.endedAt with
  | none => n
  | some v => n.withNeighbour { n.neighbour with views := enterView v n.neighbour.views }

/-- FILL_NOTICE (R152). -/
def execFillNotice (dt : Nat) (s : State) : Host.Outcome State Fault Refusal :=
  s.perform dt (fun n => n.whenStation (fun n => n.taking .fillNotice Node.hearNotice))

/-- The view heard longest ago reaches 6 h and is removed (R153). -/
def Node.viewExpiry (n : Node) : Node :=
  match earliestView n.neighbour.views with
  | none => n
  | some v =>
    let n := n.reach (v.heardAt + viewLength)
    n.withNeighbour { n.neighbour with views := withoutView v.address n.neighbour.views }

/-- VIEW_ENTRY_EXPIRY (R153). -/
def execViewEntryExpiry (dt : Nat) (s : State) : Host.Outcome State Fault Refusal :=
  s.perform dt (fun n => n.whenStation Node.viewExpiry)

/-- A heard REDIRECT NOTICE (R156): discarded for another fraction, else its card enters or refreshes the list. Card
number, fraction (12.1). -/
def Node.hearRedirect (n : Node) (r : Received) : Node :=
  if field r.telegram.payload 4 1 = n.control.settings.fraction.code then
    n.withNeighbour { n.neighbour with
      expected := enterExpected (BitVec.ofNat 32 (field r.telegram.payload 0 4)) r.endedAt n.neighbour.expected }
  else n

/-- REDIRECT_NOTICE (R156). -/
def execRedirectNotice (dt : Nat) (s : State) : Host.Outcome State Fault Refusal :=
  s.perform dt (fun n => n.whenStation (fun n => n.taking .redirectNotice Node.hearRedirect))

/-- The oldest expected card's 15 min run out (R157). -/
def Node.expectExpiry (n : Node) : Node :=
  match n.neighbour.expected with
  | [] => n
  | e :: rest =>
    let n := n.reach (e.enteredAt + expectLength)
    n.withNeighbour { n.neighbour with expected := rest }

/-- EXPECT_ENTRY_EXPIRY (R157). -/
def execExpectEntryExpiry (dt : Nat) (s : State) : Host.Outcome State Fault Refusal :=
  s.perform dt (fun n => n.whenStation Node.expectExpiry)

end Sys2Proof.Machine
end

