-- ==== Sys2Proof/Machine/PressCommands.lean ====
section
/-! DEFINITION. The meanings of the press unit's commands (06): the island claim list, the timers, the soft start, the
phases of a stroke and the press switches. -/

namespace Sys2Proof.Machine

/-- What the press unit of a station does; with no press fitted there is none (R128). -/
def Node.whenPress (n : Node) (f : Node → Node) : Node :=
  n.whenStation (fun n => if n.control.settings.pressFitted then f n else n)

/-! ### The island claim list (R116) -/

/-- A PRESS CLAIM or PRESS RELEASE taken from the receive buffer (R116): ignored for another island; with no press fitted
it is ignored too (R128). -/
def Node.takingClaim (n : Node) (kind : Kind) (f : Node → Received → Node) : Node :=
  n.taking kind (fun n r =>
    if n.control.settings.pressFitted = true ∧ field r.telegram.payload 0 1 = n.control.settings.island then f n r else n)

/-- The expiry of a heard claim: the moment of receipt plus the claimed duration plus 5 s (R116). -/
def claimExpiryOf (r : Received) : Moment :=
  r.endedAt + claimedSeconds (field r.telegram.payload 1 1) * sec + claimGrace

/-- A heard claim of the own island: the sender's entry, last in the list (R116). -/
def Node.hearClaim (n : Node) (r : Received) : Node :=
  n.withPress { n.press with claims := enterClaim r.telegram.sender (claimExpiryOf r) n.press.claims }

/-- PRESS_CLAIM (R116). -/
def execPressClaim (dt : Nat) (s : State) : Host.Outcome State Fault Refusal :=
  s.perform dt (fun n => n.whenStation (fun n => n.takingClaim .pressClaim Node.hearClaim))

/-- A heard release of the own island: the sender's entry is removed (R116). -/
def Node.hearRelease (n : Node) (r : Received) : Node :=
  n.withPress { n.press with claims := withoutClaim r.telegram.sender n.press.claims }

/-- PRESS_RELEASE (R116). -/
def execPressRelease (dt : Nat) (s : State) : Host.Outcome State Fault Refusal :=
  s.perform dt (fun n => n.whenStation (fun n => n.takingClaim .pressRelease Node.hearRelease))

/-- The entry that expires first reaches its expiry (R116). -/
def Node.claimExpiry (n : Node) : Node :=
  match firstExpiring n.press.claims with
  | none => n
  | some e =>
    let n := n.reach e.expiry
    n.withPress { n.press with claims := withoutClaim e.address n.press.claims }

/-- CLAIM_ENTRY_EXPIRY (R116). -/
def execClaimEntryExpiry (dt : Nat) (s : State) : Host.Outcome State Fault Refusal :=
  s.perform dt (fun n => n.whenPress Node.claimExpiry)

/-! ### Timers (R117, R118) -/

/-- The retry timer expires: it stops, and the trigger is evaluated (R117). -/
def Node.retryExpiry (n : Node) : Node :=
  match n.press.retry with
  | none => n
  | some t =>
    let n := n.reach t
    (n.withPress { n.press with retry := none }).pressTrigger

/-- RETRY_TIMER_EXPIRY (R117). -/
def execRetryTimerExpiry (dt : Nat) (s : State) : Host.Outcome State Fault Refusal :=
  s.perform dt (fun n => n.whenPress Node.retryExpiry)

/-- The inhibit timer expires: HOME, and the trigger is evaluated (R118). -/
def Node.inhibitExpiry (n : Node) : Node :=
  match n.press.inhibit with
  | none => n
  | some t =>
    let n := n.reach t
    (n.withPress { n.press with
      inhibit := none
      state := if n.press.state = .inhibited then .home else n.press.state }).pressTrigger

/-- INHIBIT_TIMER_EXPIRY (R118). -/
def execInhibitTimerExpiry (dt : Nat) (s : State) : Host.Outcome State Fault Refusal :=
  s.perform dt (fun n => n.whenPress Node.inhibitExpiry)

/-! ### The drive and the stroke (R120, R121, R124) -/

/-- The next step of a soft start (R120): 7% more every 100 ms up to 100%; or the start of a forward drive that waited for
the dead interval (DEDUCED, log entry 15). -/
def Node.softStep (n : Node) : Node :=
  match n.press.forwardDue with
  | some t =>
    let n := n.reach t
    (n.withPress (n.press.startDrive n.now .forward)).abandonSounding
  | none =>
    match n.press.drive with
    | none => n
    | some d =>
      if d.duty < 100 then
        let n := n.reach d.stepDue
        n.withPress { n.press with drive := some { d with duty := min 100 (d.duty + 7), stepDue := d.stepDue + softStartStep } }
      else n

/-- SOFT_START_STEP (R120). -/
def execSoftStartStep (dt : Nat) (s : State) : Host.Outcome State Fault Refusal :=
  s.perform dt (fun n => n.whenPress Node.softStep)

/-- The load comparator trips (R121): it is watched once the soft start of the forward drive is complete. -/
def Node.loadTrip (n : Node) : Node :=
  match n.press.state, n.press.drive with
  | .forward, some d => if 100 ≤ d.duty then n.withPress (n.press.endForward n.now) else n
  | _, _ => n

/-- LOAD_TRIP (R121). -/
def execLoadTrip (dt : Nat) (s : State) : Host.Outcome State Fault Refusal :=
  s.perform dt (fun n => n.whenPress Node.loadTrip)

/-- The debounced end switch settles or changes (R120, R121): ACTIVE it ends forward drive, from whose start it is watched;
INACTIVE it is only recorded. -/
def Node.endSwitch (n : Node) (isActive : Bool) : Node :=
  let n := n.withPress { n.press with endSwitch := if isActive then .active else .inactive }
  match isActive, n.press.state, n.press.drive with
  | true, .forward, some _ => n.withPress (n.press.endForward n.now)
  | _, _, _ => n

/-- END_SWITCH_ACTIVE (R120, R121), and the end switch's change to INACTIVE (DESIGN CHOICE, log entry 16). -/
def execEndSwitchActive (event : EndSwitchEvent) (s : State) : Host.Outcome State Fault Refusal :=
  s.perform event.dt (fun n => n.whenPress (fun n => n.endSwitch event.isActive))

/-- Forward drive reaches 20 s: an ordinary end (R121). -/
def Node.forwardLimitReached (n : Node) : Node :=
  match n.press.state, n.press.drive with
  | .forward, some d =>
    let n := n.reach (d.began + forwardLimit)
    n.withPress (n.press.endForward n.now)
  | _, _ => n

/-- FORWARD_TIME_LIMIT (R121). -/
def execForwardTimeLimit (dt : Nat) (s : State) : Host.Outcome State Fault Refusal :=
  s.perform dt (fun n => n.whenPress Node.forwardLimitReached)

/-- The dwell ends: REVERSE of the kind the dwell was for (R121, R123). -/
def Node.dwellEnd (n : Node) : Node :=
  match n.press.state, n.press.dwellEnds with
  | .dwell, some t =>
    let n := n.reach t
    n.withPress (n.press.startReverse n.now n.press.kind)
  | _, _ => n

/-- DWELL_END (R121, R123). -/
def execDwellEnd (dt : Nat) (s : State) : Host.Outcome State Fault Refusal :=
  s.perform dt (fun n => n.whenPress Node.dwellEnd)

/-- Reverse drive reaches 25 s without the home switch: FAULT (R124). -/
def Node.reverseLimitReached (n : Node) : Node :=
  match n.press.state, n.press.drive with
  | .reversing, some d => (n.reach (d.began + (reverseLimit - n.press.reverseUsed))).pressFault
  | _, _ => n

/-- REVERSE_TIME_LIMIT (R124). -/
def execReverseTimeLimit (dt : Nat) (s : State) : Host.Outcome State Fault Refusal :=
  s.perform dt (fun n => n.whenPress Node.reverseLimitReached)

/-! ### The home switch (R121, R126 to R128) -/

/-- The home switch reads ACTIVE (R121, R126, R127): a REVERSE of any kind reaches home. -/
def Node.homeActive (n : Node) (reading : Option Int) : Node :=
  let n := n.withPress { n.press with homeSwitch := .active }
  if n.press.state = .reversing then n.reachHome reading else n

/-- HOME_SWITCH_ACTIVE (R121, R126, R127). -/
def execHomeSwitchActive (dt : Nat) (reading : Option Int) (s : State) : Host.Outcome State Fault Refusal :=
  s.perform dt (fun n => n.whenPress (fun n => n.homeActive reading))

/-- The homing drive starts (R127), which abandons a sounding in flight (R22, R111). -/
def Node.driveHoming (n : Node) : Node :=
  (n.withPress { (n.press.startDrive n.now .reverse) with homingFrom := none }).abandonSounding

/-- The press waits to home: REVERSE of kind HOMING with the drive not yet on (R127). -/
def Press.awaitsHoming (p : Press) : Bool := p.state == .reversing && p.kind == .homing && p.drive.isNone

/-- 250 ms after a good configuration, with the home switch INACTIVE, the homing drive starts (R127). -/
def Node.homingStart (n : Node) : Node :=
  match n.press.homingFrom with
  | none => n
  | some t =>
    if n.press.awaitsHoming = true ∧ n.press.homeSwitch = .inactive then (n.reach t).driveHoming else n

/-- HOMING_DRIVE_START (R127). -/
def execHomingDriveStart (dt : Nat) (s : State) : Host.Outcome State Fault Refusal :=
  s.perform dt (fun n => n.whenPress Node.homingStart)

/-- The 250 ms after the configuration have passed (R127). -/
def Press.homingAllowed (p : Press) (now : Moment) : Bool :=
  match p.homingFrom with
  | none => false
  | some t => decide (t ≤ now)

/-- The home switch first settles (R127, R128): ACTIVE gives HOME without driving; INACTIVE lets the homing drive start,
if its 250 ms have passed. -/
def Node.homeSettles (n : Node) (isActive : Bool) (reading : Option Int) : Node :=
  if n.press.homeSwitch = .unsettled then
    let n := n.withPress { n.press with homeSwitch := if isActive then .active else .inactive }
    if n.press.awaitsHoming = false then n
    else if isActive then n.reachHome reading
    else if n.press.homingAllowed n.now then n.driveHoming
    else n
  else n

/-- HOME_SWITCH_SETTLED (R127, R128). -/
def execHomeSwitchSettled (dt : Nat) (isActive : Bool) (reading : Option Int) (s : State) :
    Host.Outcome State Fault Refusal :=
  s.perform dt (fun n => n.whenPress (fun n => n.homeSettles isActive reading))

/-- The debounced home switch changes (R128): in STOPPED the press reads at home while it is ACTIVE, and a window ends
when it ceases to (R57). Its becoming ACTIVE in REVERSE is HOME_SWITCH_ACTIVE's event. -/
def Node.homeChanges (n : Node) (isActive : Bool) : Node :=
  if n.press.homeSwitch = .unsettled ∨ (n.press.state = .reversing ∧ isActive = true) then n
  else
    let n := n.withPress { n.press with homeSwitch := if isActive then .active else .inactive }
    if n.press.state = .stopped ∧ isActive = false ∧ n.hatch.phase = .window then n.withHatch n.hatch.endRelease else n

/-- HOME_SWITCH_CHANGE (R128, R57). -/
def execHomeSwitchChange (dt : Nat) (isActive : Bool) (s : State) : Host.Outcome State Fault Refusal :=
  s.perform dt (fun n => n.whenPress (fun n => n.homeChanges isActive))

end Sys2Proof.Machine
end

