-- ==== Sys2Proof/Machine/RelayCommands.lean ====
section
/-! DEFINITION. The meanings of the relay unit's commands (10). -/

namespace Sys2Proof.Machine

/-- DEPOT_FRAME (R176, R179): the characters that arrive on the depot port. -/
def execDepotFrame (dt : Nat) (chars : List HeardChar) (s : State) : Host.Outcome State Fault Refusal :=
  s.perform dt (fun n => n.whenRelay (fun n => n.depotChars chars))

/-- More than 20 ms pass between two characters of a frame (R176). -/
def Node.frameTimeout (n : Node) : Node :=
  match n.relay.receiver with
  | .hunting => n
  | .inFrame _ lastAt => (n.reach (lastAt + framePause + 1)).discardFrame

/-- DEPOT_FRAME_TIMEOUT (R176). -/
def execDepotFrameTimeout (dt : Nat) (s : State) : Host.Outcome State Fault Refusal :=
  s.perform dt (fun n => n.whenRelay Node.frameTimeout)

/-- DEPOT_TO_LINE_OFFER (R179, R180). -/
def execDepotToLineOffer (dt : Nat) (s : State) : Host.Outcome State Fault Refusal :=
  s.perform dt (fun n => n.whenRelay Node.offerFromDepot)

/-- A frame is begun when the depot transmitter is IDLE, the queue holds a telegram and CTS reads asserted (R177). -/
def Node.beginFrame (n : Node) (cts : Bool) : Node :=
  if n.relay.transmitting = false ∧ n.relay.lineToDepot.isEmpty = false ∧ cts = true then
    n.withRelay { n.relay with transmitting := true }
  else n

/-- DEPOT_FRAME_SEND (R177); `cts` is the CTS input. -/
def execDepotFrameSend (dt : Nat) (cts : Bool) (s : State) : Host.Outcome State Fault Refusal :=
  s.perform dt (fun n => n.whenRelay (fun n => n.beginFrame cts))

/-- The end character is sent: the telegram leaves the queue (R177). -/
def Node.endFrame (n : Node) : Node :=
  if n.relay.transmitting then
    n.withRelay { n.relay with transmitting := false, lineToDepot := n.relay.lineToDepot.drop 1 }
  else n

/-- DEPOT_FRAME_END (R177). -/
def execDepotFrameEnd (dt : Nat) (s : State) : Host.Outcome State Fault Refusal :=
  s.perform dt (fun n => n.whenRelay Node.endFrame)

/-- The answer timer that is first runs out (R181). -/
def Node.answerExpiry (n : Node) : Node :=
  match firstTiming n.relay.outstanding with
  | none => n
  | some (o, t) => (n.reach t).requestFails o

/-- ANSWER_TIMER_EXPIRY (R181). -/
def execAnswerTimerExpiry (dt : Nat) (s : State) : Host.Outcome State Fault Refusal :=
  s.perform dt (fun n => n.whenRelay Node.answerExpiry)

/-- RELAY_CLOCK_SECOND (R182). -/
def execRelayClockSecond (dt : Nat) (s : State) : Host.Outcome State Fault Refusal :=
  s.perform dt (fun n => n.whenRelay (fun n => n.withRelay { n.relay with clock := n.relay.clock.map RelayClock.tick }))

/-- The origination timer runs out with the relay clock SET: a TIME to ALL is offered, and the timer restarts (R182). -/
def Node.originate (n : Node) : Node :=
  match n.relay.clock, n.relay.origination with
  | some c, some t =>
    let n := (n.reach t).offerOnly .relayUnit (n.timeTelegram c)
    n.withRelay { n.relay with origination := some (n.now + originationLength) }
  | _, _ => n

/-- ORIGINATION_TIMER_EXPIRY (R182). -/
def execOriginationTimerExpiry (dt : Nat) (s : State) : Host.Outcome State Fault Refusal :=
  s.perform dt (fun n => n.whenRelay Node.originate)

end Sys2Proof.Machine
end

