-- ==== Sys2Proof/Machine/SoundingCommands.lean ====
section
/-! DEFINITION. The meanings of the sounding commands (01): the request, the ping slots, the end of a sounding and the
periodic timer. -/

namespace Sys2Proof.Machine

/-- The due time of the request is reached (R21). -/
def Node.soundingDue (n : Node) (reading : Option Int) : Node :=
  match n.sounding.request with
  | none => n
  | some r => if n.sounding.phase = .waiting then (n.reach r.due).trySounding reading else n

/-- SOUNDING_DUE (R21, R3, R4). -/
def execSoundingDue (dt : Nat) (reading : Option Int) (s : State) : Host.Outcome State Fault Refusal :=
  s.perform dt (fun n => n.whenStation (fun n => n.soundingDue reading))

/-- The sounding in flight is otherwise. -/
def Node.withFlight (n : Node) (f : Flight) : Node := n.withSounding { n.sounding with flight := some f }

/-- The slots that have begun. -/
def Flight.slotsBegun (f : Flight) : Nat := f.results.length + (if f.slot.isSome then 1 else 0)

/-- The results with that of the slot under way (R3, R6). -/
def Flight.allResults (f : Flight) : List (Option Nat) :=
  f.results ++ (match f.slot with | some s => [s.echo] | none => [])

/-- The next slot begins (R6): slot k starts (k − 1) × 60 ms after the first burst, and the transmit output is driven. -/
def Node.startSlot (n : Node) (f : Flight) : Node :=
  if f.slotsBegun < n.control.settings.pingCount then
    let n := match f.firstBurst with
      | none => n
      | some t => n.reach (t + f.slotsBegun * pingSlotLength)
    n.withFlight { f with
      results := f.allResults
      firstBurst := some (f.firstBurst.getD n.now)
      slot := some ⟨n.now, true, .blanking, none⟩ }
  else n

/-- PING_SLOT_START (R5, R6). -/
def execPingSlotStart (dt : Nat) (s : State) : Host.Outcome State Fault Refusal :=
  s.perform dt (fun n => n.whenStation (fun n =>
    match n.sounding.flight with
    | none => n
    | some f => n.startSlot f))

/-- What an event does to the ping slot under way. -/
def Node.atSlot (n : Node) (f : Node → Flight → PingSlot → Node) : Node :=
  match n.sounding.flight with
  | none => n
  | some fl =>
    match fl.slot with
    | none => n
    | some sl => f n fl sl

/-- The burst time ends: the transmit output is released (R5). -/
def Node.burstEnd (n : Node) (f : Flight) (sl : PingSlot) : Node :=
  if sl.driving then
    (n.reach (sl.began + burstLength)).withFlight { f with slot := some { sl with driving := false } }
  else n

/-- BURST_END (R5). -/
def execBurstEnd (dt : Nat) (s : State) : Host.Outcome State Fault Refusal :=
  s.perform dt (fun n => n.whenStation (fun n => n.atSlot Node.burstEnd))

/-- The blanking time ends: the echo input is watched (R5). -/
def Node.blankingEnd (n : Node) (f : Flight) (sl : PingSlot) : Node :=
  if sl.watch = .blanking then
    (n.reach (sl.began + n.control.settings.blanking)).withFlight { f with slot := some { sl with watch := .watching } }
  else n

/-- BLANKING_END (R5). -/
def execBlankingEnd (dt : Nat) (s : State) : Host.Outcome State Fault Refusal :=
  s.perform dt (fun n => n.whenStation (fun n => n.atSlot Node.blankingEnd))

/-- An edge of the echo input: the first in the window, up to 24,000 µs inclusive, gives the ping result (R5). -/
def Node.echoEdge (n : Node) (f : Flight) (sl : PingSlot) : Node :=
  if sl.watch = .watching ∧ n.now - sl.began ≤ longestEcho then
    n.withFlight { f with slot := some { sl with watch := .over, echo := some (n.now - sl.began) } }
  else n

/-- ECHO_EDGE (R5). -/
def execEchoEdge (dt : Nat) (s : State) : Host.Outcome State Fault Refusal :=
  s.perform dt (fun n => n.whenStation (fun n => n.atSlot Node.echoEdge))

/-- 24,000 µs have passed without an edge: the ping result is NONE (R5). -/
def Node.windowEnd (n : Node) (f : Flight) (sl : PingSlot) : Node :=
  if sl.watch = .watching then
    (n.reach (sl.began + longestEcho)).withFlight { f with slot := some { sl with watch := .over, echo := none } }
  else n

/-- PING_WINDOW_END (R5). -/
def execPingWindowEnd (dt : Nat) (s : State) : Host.Outcome State Fault Refusal :=
  s.perform dt (fun n => n.whenStation (fun n => n.atSlot Node.windowEnd))

/-- The evaluation is taken (R12, R13). -/
def Node.takeEvaluation (n : Node) (repeated : Bool) (e : Evaluation) : Node :=
  match e with
  | .failed => n.soundingFailed
  | .used median fill unsteady => n.soundingUsed repeated median fill unsteady

/-- The end of a sounding with a result is passed on (R14): the first sounding ended, raising is evaluated, and the
trigger. -/
def Node.passResult (n : Node) : Node :=
  (((n.withHatch { n.hatch with firstSounding := true }).evaluateStart).raiseCall).pressTrigger

/-- The last slot ends P × 60 ms after the first burst, and the sounding is evaluated (R6, R7). -/
def Node.soundingEnd (n : Node) : Node :=
  match n.sounding.flight with
  | none => n
  | some f =>
    match f.firstBurst with
    | none => n
    | some t =>
      if f.slotsBegun = n.control.settings.pingCount then
        let n := n.reach (t + n.control.settings.pingCount * pingSlotLength)
        (n.takeEvaluation f.repeats (evaluateSounding n.control.settings f.temperature f.allResults)).passResult
      else n

/-- SOUNDING_END (R6 to R14). -/
def execSoundingEnd (dt : Nat) (s : State) : Host.Outcome State Fault Refusal :=
  s.perform dt (fun n => n.whenStation Node.soundingEnd)

/-- The periodic timer expires: it stops and arms a request due at once (R20). -/
def Node.periodicExpiry (n : Node) : Node :=
  match n.sounding.periodic with
  | none => n
  | some t =>
    let n := n.reach t
    (n.withSounding { n.sounding with periodic := none }).armSounding 0

/-- PERIODIC_TIMER_EXPIRY (R20). -/
def execPeriodicTimerExpiry (dt : Nat) (s : State) : Host.Outcome State Fault Refusal :=
  s.perform dt (fun n => n.whenStation Node.periodicExpiry)

end Sys2Proof.Machine
end

