-- ==== Sys2Proof/Machine/StartUnit.lean ====
section
/-! DEFINITION. Starts and the configuration (11): what every start gives the units, and what each begins when the outcome
of the read is reported. -/

namespace Sys2Proof.Machine

/-! ### Starts (R188) -/

/-- A start (R188): every unit takes its start values, an operation in flight is cut off at once, the row being
programmed is torn (R88), and the configuration is to be read anew. -/
def Node.startUnits (n : Node) (cause : Cause) : Node :=
  { n with
    control := .start cause
    sounding := .start n.now
    cards := .start
    hatch := .start
    tally := .start
    clock := .start
    store := n.store.cutOff
    log := .start
    press := .start n.now
    line := .start
    neighbour := .start
    call := .start
    relay := .start }

/-- The supply rises (R188): a start with cause POWER; with the RESET pin held the start waits for its release, and the
node holds its start values. -/
def Node.powerOn (n : Node) : Node :=
  (n.withPower { n.power with supply := true, startWaits := n.power.pinHeld }).startUnits .power

/-- The RESET pin goes active (R188): the node holds its start values. -/
def Node.holdReset (n : Node) : Node :=
  let held := n.withPower { n.power with pinHeld := true }
  if n.power.supply = true ∧ n.power.pinHeld = false then held.startUnits .pin else held

/-- The RESET pin is released (R188): a start with cause PIN, or POWER when the supply rose while it was held. -/
def Node.releaseReset (n : Node) : Node :=
  let free := n.withPower { n.power with pinHeld := false, startWaits := false }
  if n.power.supply then free.startUnits (if n.power.startWaits then .power else .pin) else free

/-- The supply fails (R88): every operation is cut off at once, and the row being programmed is torn. Until POWER_ON the node
holds its start values with cause POWER (DESIGN CHOICE, log entry 27). -/
def Node.supplyFails (n : Node) : Node :=
  (n.withPower { n.power with supply := false, startWaits := false }).startUnits .power

/-! ### The outcome of the read (R185 to R187) -/

/-- The pseudo-random register is loaded with the address, or 1 (R132), and the silence timer runs from the outcome of
the read (R131). -/
def Node.beginLine (n : Node) (address : Option Nat) : Node :=
  n.withLine { n.line with random := BitVec.ofNat 16 (address.getD 1), silence := some (n.now + silenceLength) }

/-- The configuration is good (R185): every unit begins its start work. Homing may start to drive 250 ms later (R127);
the relay unit is RUNNING with RTS asserted (R175). -/
def Node.configured (n : Node) (settings : Settings) (clamped : Bool) : Node :=
  let n := n.withControl { n.control with phase := .running, settings := settings, clamped := clamped }
  let n := n.beginLine settings.address
  match settings.role with
  | .station => (n.withPress { n.press with homingFrom := some (n.now + deadInterval) }).evaluateStart
  | .relay => n.withRelay { n.relay with phase := .running, rts := true }

/-- The configuration has failed (R187): the node is in SAFE with the values of R187. The sounding unit, the press unit,
the neighbour unit, the call unit and the relay unit stop (R24, R128, R151, R173, R183). -/
def Node.enterSafe (n : Node) (settings : Settings) : Node :=
  let n := n.withControl { n.control with phase := .safe, settings := settings }
  let n := n.beginLine settings.address
  let n := n.withSounding { n.sounding with phase := .stopped, request := none }
  let n := n.withHatch { n.hatch with station := .safe }
  let n := n.withPress { n.press with state := .stopped }
  let n := n.withNeighbour { n.neighbour with phase := .stopped }
  let n := n.withCall { n.call with stopped := true }
  n.withRelay { n.relay with phase := .stopped }

/-- The read of the configuration block ends (R185): only while a start is in its read. -/
def Node.configurationRead (n : Node) (block : List Byte) : Node :=
  if n.power.supply = true ∧ n.power.pinHeld = false ∧ n.control.phase = .reading then
    match readBlock block with
    | .good settings clamped => n.configured settings clamped
    | .failed settings => n.enterSafe settings
  else n

end Sys2Proof.Machine
end

