-- ==== Sys2Proof/Machine/Starts.lean ====
section
/-! DEFINITION. The meanings of the start commands (11): POWER_ON, RESET_PIN, RESTART, CONFIGURATION_READ, RESET_PIN_HELD
and SUPPLY_FAILS. -/

namespace Sys2Proof.Machine

/-- POWER_ON (R188). -/
def execPowerOn (dt : Nat) (s : State) : Host.Outcome State Fault Refusal := s.perform dt Node.powerOn

/-- RESET_PIN (R188). -/
def execResetPin (dt : Nat) (s : State) : Host.Outcome State Fault Refusal := s.perform dt Node.releaseReset

/-- RESTART (R189): the configuration and status unit takes a RESTART from the receive buffer, and a start begins. -/
def execRestart (dt : Nat) (s : State) : Host.Outcome State Fault Refusal :=
  s.perform dt (fun n => n.whenLive (fun n => n.taking .restart (fun n _ => n.startUnits .telegram)))

/-- CONFIGURATION_READ (R185, R186, R187). -/
def execConfigurationRead (dt : Nat) (block : List Byte) (s : State) : Host.Outcome State Fault Refusal :=
  s.perform dt (fun n => n.configurationRead block)

/-- RESET_PIN_HELD (R188). -/
def execResetPinHeld (dt : Nat) (s : State) : Host.Outcome State Fault Refusal := s.perform dt Node.holdReset

/-- SUPPLY_FAILS (R88). -/
def execSupplyFails (dt : Nat) (s : State) : Host.Outcome State Fault Refusal := s.perform dt Node.supplyFails

end Sys2Proof.Machine
end

