-- ==== Sys2Proof/Machine/StatusCommands.lean ====
section
/-! DEFINITION. The meanings of the status commands (11): STATUS_REQUEST and STATUS_ANSWER. -/

namespace Sys2Proof.Machine

/-- A STATUS REQUEST taken from the receive buffer (R190): a station's answer is pending, a relay's is built at once.
Request tag (12.1). -/
def Node.hearStatusRequest (n : Node) (r : Received) : Node :=
  match n.control.settings.role with
  | .station => n.requestStatus (field r.telegram.payload 0 1)
  | .relay => n.answerRelayStatus (field r.telegram.payload 0 1)

/-- STATUS_REQUEST (R190). -/
def execStatusRequest (dt : Nat) (s : State) : Host.Outcome State Fault Refusal :=
  s.perform dt (fun n => n.whenLive (fun n => n.taking .statusRequest Node.hearStatusRequest))

/-- STATUS_ANSWER (R190, R191, R140). -/
def execStatusAnswer (dt : Nat) (s : State) : Host.Outcome State Fault Refusal :=
  s.perform dt (fun n => n.whenStation (fun n => n.offerClass3 .status))

end Sys2Proof.Machine
end

