-- ==== Sys2Proof/Machine/StoreCommands.lean ====
section
/-! DEFINITION. The meanings of the commands of the nonvolatile store and the deposit log (05). -/

namespace Sys2Proof.Machine

/-! ### Programming and appending (R88, R95, R98) -/

/-- The committed mark advances to a record whose row has been programmed (R95): the row carries no CONFIRMED marker and
its record is held. -/
def Node.commitRow (n : Node) (w : RowWrite) : Node :=
  let q := rowSequence w.row w.bytes
  if w.region = .log ∧ rowConfirmed w.bytes = false ∧ n.log.held.any (fun r => r.seq == q) = true then
    n.withLog { n.log with committed := some q }
  else n

/-- The program of the oldest entry ends (R88): its row holds the new content, the next program begins, and the freed
entry goes to what the deposit log has waiting, or is kept for the unit that waits (R89). -/
def Node.programEnds (n : Node) : Node :=
  match n.store.programEnds, n.store.staging with
  | some t, w :: _ =>
    let n := n.reach t
    ((((n.withStore (n.store.programmed n.now)).commitRow w).clearProgrammed w).placeWaiting).giveFreed n.entriesTaken
  | _, _ => n

/-- ROW_PROGRAM_END (R88, R34, R36). -/
def execRowProgramEnd (dt : Nat) (s : State) : Host.Outcome State Fault Refusal :=
  s.perform dt (fun n => n.whenStation Node.programEnds)

/-- The log is full (R90). -/
def Log.isFull (l : Log) : Bool := decide (logCapacity ≤ l.held.length)

/-- A record is appended (R95): the next sequence number, held as the newest, its row write placed and an accounting row
write to follow. A pending mark whose row it takes is discarded (R103). -/
def Node.appendRecord (n : Node) (e : LogEntry) : Node :=
  let r : LogRecord := ⟨n.log.accounting.next, e, false⟩
  let n := n.withLog { n.log with
    held := n.log.held ++ [r]
    accounting := { n.log.accounting with next := n.log.accounting.next + 1 }
    working := some e
    pair := .both
    mark := n.log.mark.filter (fun m => logRowOf m.seq != logRowOf r.seq) }
  (n.placeRow .log (logRowOf r.seq) (logRow r)).placeWaiting

/-- An item of which no record is made (R98): a DEPOSIT that finds the log full is counted in the overflow counters, and one
accounting row write is placed for it, as for one that a rollover has counted already (R81, log entry 48); any other record is
lost. -/
def Node.overflowItem (n : Node) (e : LogEntry) : Node :=
  match e.body with
  | .deposit _ charge _ _ _ =>
    (n.withLog { n.log with
      accounting := n.log.accounting.overflowed charge, working := some e, pair := .both }).placeWaiting
  | .overflowDeposit => (n.withLog { n.log with working := some e, pair := .both }).placeWaiting
  | _ => n.withLog (n.log.lose e)

/-- A RESTART record (R108). -/
def LogEntry.isRestart (e : LogEntry) : Bool :=
  match e.body with
  | .restart _ => true
  | _ => false

/-- The oldest item of the append list is appended (R95, R98). Once the RESTART record of a start no longer waits in the list,
appended, lost in a full log or lost for an OVERFLOW SUMMARY (R99), the rebuild of the tally table ends, if it has not yet (R76,
R108, log entry 45). -/
def Node.appendOldest (n : Node) : Node :=
  match n.log.appendList with
  | [] => n
  | e :: rest =>
    if n.logReady then
      let m := n.withLog { n.log with appendList := rest, markAhead := n.log.markAhead - 1 }
      let m := if m.log.isFull || e.isOverflow then m.overflowItem e else m.appendRecord e
      (if rest.any LogEntry.isRestart then m else m.endRebuild).releaseFreed n.entriesTaken
    else n

/-- RECORD_APPEND (R95, R98, R76). -/
def execRecordAppend (dt : Nat) (s : State) : Host.Outcome State Fault Refusal :=
  s.perform dt (fun n => n.whenStation Node.appendOldest)

/-- An accounting row write is placed when it is due and the append list is empty (R93). -/
def Node.writeAccounting (n : Node) : Node :=
  if n.logReady = true ∧ n.log.due = true ∧ n.log.appendList.isEmpty = true then
    n.placeAccounting.releaseFreed n.entriesTaken
  else n

/-- ACCOUNTING_WRITE (R93). -/
def execAccountingWrite (dt : Nat) (s : State) : Host.Outcome State Fault Refusal :=
  s.perform dt (fun n => n.whenStation Node.writeAccounting)

/-- The pending mark is placed as the row of the newest freed record with the CONFIRMED marker set, when no item of the
append list waits ahead of it (R103). -/
def Node.writeMark (n : Node) : Node :=
  match n.log.mark with
  | none => n
  | some r =>
    if n.logReady = true ∧ n.log.markAhead = 0 then
      ((n.placeRow .log (logRowOf r.seq) (logRow { r with confirmed := true })).withLog
        { n.log with mark := none }).releaseFreed n.entriesTaken
    else n

/-- CONFIRM_MARK_WRITE (R103). -/
def execConfirmMarkWrite (dt : Nat) (s : State) : Host.Outcome State Fault Refusal :=
  s.perform dt (fun n => n.whenStation Node.writeMark)

/-! ### The end of the start scan (R105 to R108) -/

/-- The RESTART record of the start (R108), with an OVERFLOW SUMMARY behind it when overflow deposits stand in the
accounting content and the log is not full. That is judged as the two enter the append list, before the RESTART record is
appended: with 1,023 records held the summary is made and then finds the log full (DESIGN CHOICE, log entry 51). -/
def Node.restartRecord (n : Node) : Node :=
  let restart := n.entryOf (.restart (BitVec.ofNat 8 n.control.cause.code)) none
  if 0 < n.log.accounting.overflowCount ∧ n.log.isFull = false then
    n.withLog { n.log with
      appendList := [restart, n.summaryEntry]
      accounting := { n.log.accounting with overflowCount := 0, overflowCharge := 0 }
      lost := 0 }
  else n.withLog { n.log with appendList := [restart] }

/-- The requests that waited for the end of the scan reach the log in their order (R90, R108; DEDUCED, log entry 18). -/
def Node.takeEarly (n : Node) : Node :=
  n.log.early.foldl (fun n q => n.withLog (n.log.enterEvent (n.entryOf q.1 q.2)))
    (n.withLog { n.log with early := [] })

/-- What the scan found becomes the log's, the clock's day (R77) and the last tag used (R159). -/
def Node.takeScan (n : Node) (found : ScanResult) : Node :=
  let n := n.withLog { n.log with
    phase := .opened
    held := found.held
    committed := found.held.getLast?.map (·.seq)
    accounting := found.accounting
    due := found.changed }
  let n := n.withClock { n.clock with day := found.accounting.day }
  n.withCall { n.call with lastTag := found.accounting.next.toNat % 64 }

/-- The log's start scan ends (R105 to R108), the start conditions are evaluated (R45) and the trigger (R112). -/
def Node.logScanEnd (n : Node) : Node :=
  if n.log.phase = .scanning then
    ((((n.takeScan n.store.scanLog).restartRecord).takeEarly).evaluateStart).pressTrigger
  else n

/-- LOG_SCAN_END (R105 to R108). -/
def execLogScanEnd (dt : Nat) (s : State) : Host.Outcome State Fault Refusal :=
  s.perform dt (fun n => n.whenStation Node.logScanEnd)

/-! ### Harvest (R100 to R104) -/

/-- What the deposit log does with a telegram it takes from the receive buffer: only from log phase OPEN (R145). -/
def Node.takingLog (n : Node) (kind : Kind) (f : Node → Received → Node) : Node :=
  if n.log.phase = .opened then n.taking kind f else n

/-- HARVEST_REQUEST (R100, R102): request tag, from-sequence, maximum (12.1). -/
def execHarvestRequest (dt : Nat) (s : State) : Host.Outcome State Fault Refusal :=
  s.perform dt (fun n => n.whenStation (fun n => n.takingLog .harvestRequest (fun n r =>
    n.fixHarvest (field r.telegram.payload 0 1) (BitVec.ofNat 24 (field r.telegram.payload 1 3))
      (field r.telegram.payload 4 1))))

/-- HARVEST_ANSWER (R101, R104, R140). -/
def execHarvestAnswer (dt : Nat) (s : State) : Host.Outcome State Fault Refusal :=
  s.perform dt (fun n => n.whenStation (fun n => n.offerClass3 .harvest))

/-- How many records a confirm up to `u` frees (R103): from the oldest to `u`, all, or none. -/
def freedCount (held : List LogRecord) (u : Sequence) : Nat :=
  match placeOf held u, held.head? with
  | .held, some o => seqDistance o.seq u + 1
  | .beyondNewest, _ => held.length
  | _, _ => 0

/-- A HARVEST CONFIRM frees the held records up to `u` (R103). -/
def Node.confirm (n : Node) (u : Sequence) : Node :=
  n.freeRecords (n.log.held.take (freedCount n.log.held u)) (n.log.held.drop (freedCount n.log.held u))

/-- HARVEST_CONFIRM (R103, R104, R99): up-to-sequence (12.1). -/
def execHarvestConfirm (dt : Nat) (s : State) : Host.Outcome State Fault Refusal :=
  s.perform dt (fun n => n.whenStation (fun n => n.takingLog .harvestConfirm (fun n r =>
    n.confirm (BitVec.ofNat 24 (field r.telegram.payload 0 3)))))

end Sys2Proof.Machine
end

