-- ==== Sys2Proof/Machine/Dispatch.lean ====
section
/-! DEFINITION. The dispatch: one arm for each command, a direct call of its meaning. -/

namespace Sys2Proof.Machine

/-- What a command does, by the command (one meaning each). -/
def exec (i : Instr) (s : State) : Host.Outcome State Fault Refusal :=
  match i with
  | .powerOn dt => Sys2Proof.Machine.execPowerOn dt s
  | .resetPin dt => Sys2Proof.Machine.execResetPin dt s
  | .restart dt => Sys2Proof.Machine.execRestart dt s
  | .configurationRead dt block => Sys2Proof.Machine.execConfigurationRead dt block s
  | .soundingDue dt reading => Sys2Proof.Machine.execSoundingDue dt reading s
  | .pingSlotStart dt => Sys2Proof.Machine.execPingSlotStart dt s
  | .burstEnd dt => Sys2Proof.Machine.execBurstEnd dt s
  | .blankingEnd dt => Sys2Proof.Machine.execBlankingEnd dt s
  | .echoEdge dt => Sys2Proof.Machine.execEchoEdge dt s
  | .pingWindowEnd dt => Sys2Proof.Machine.execPingWindowEnd dt s
  | .soundingEnd dt => Sys2Proof.Machine.execSoundingEnd dt s
  | .periodicTimerExpiry dt => Sys2Proof.Machine.execPeriodicTimerExpiry dt s
  | .cardRead dt card => Sys2Proof.Machine.execCardRead dt card s
  | .readError dt => Sys2Proof.Machine.execReadError dt s
  | .windowExpiry dt => Sys2Proof.Machine.execWindowExpiry dt s
  | .lockPullInEnd dt => Sys2Proof.Machine.execLockPullInEnd dt s
  | .deferredReleaseExpiry dt => Sys2Proof.Machine.execDeferredReleaseExpiry dt s
  | .servicePeriodExpiry dt => Sys2Proof.Machine.execServicePeriodExpiry dt s
  | .indicationExpiry dt => Sys2Proof.Machine.execIndicationExpiry dt s
  | .buzzerToneEnd dt => Sys2Proof.Machine.execBuzzerToneEnd dt s
  | .hatchSettled dt isOpen reading => Sys2Proof.Machine.execHatchSettled dt isOpen reading s
  | .hatchOpen dt => Sys2Proof.Machine.execHatchOpen dt s
  | .hatchClosed dt reading => Sys2Proof.Machine.execHatchClosed dt reading s
  | .hatchStuck dt => Sys2Proof.Machine.execHatchStuck dt s
  | .liftSettled dt isLifted reading => Sys2Proof.Machine.execLiftSettled dt isLifted reading s
  | .lift dt => Sys2Proof.Machine.execLift dt s
  | .seat dt reading => Sys2Proof.Machine.execSeat dt reading s
  | .cardUpdate dt => Sys2Proof.Machine.execCardUpdate dt s
  | .add dt => Sys2Proof.Machine.execAdd dt s
  | .remove dt => Sys2Proof.Machine.execRemove dt s
  | .clear dt => Sys2Proof.Machine.execClear dt s
  | .revokeAdd dt => Sys2Proof.Machine.execRevokeAdd dt s
  | .revokeRemove dt => Sys2Proof.Machine.execRevokeRemove dt s
  | .revokeClear dt => Sys2Proof.Machine.execRevokeClear dt s
  | .clearRowWrite dt => Sys2Proof.Machine.execClearRowWrite dt s
  | .cardTableScanEnd dt => Sys2Proof.Machine.execCardTableScanEnd dt s
  | .rowProgramEnd dt => Sys2Proof.Machine.execRowProgramEnd dt s
  | .recordAppend dt => Sys2Proof.Machine.execRecordAppend dt s
  | .accountingWrite dt => Sys2Proof.Machine.execAccountingWrite dt s
  | .confirmMarkWrite dt => Sys2Proof.Machine.execConfirmMarkWrite dt s
  | .logScanEnd dt => Sys2Proof.Machine.execLogScanEnd dt s
  | .harvestRequest dt => Sys2Proof.Machine.execHarvestRequest dt s
  | .harvestAnswer dt => Sys2Proof.Machine.execHarvestAnswer dt s
  | .harvestConfirm dt => Sys2Proof.Machine.execHarvestConfirm dt s
  | .tallyNotice dt => Sys2Proof.Machine.execTallyNotice dt s
  | .clockSecond dt => Sys2Proof.Machine.execClockSecond dt s
  | .time dt => Sys2Proof.Machine.execTime dt s
  | .pressClaim dt => Sys2Proof.Machine.execPressClaim dt s
  | .pressRelease dt => Sys2Proof.Machine.execPressRelease dt s
  | .claimEntryExpiry dt => Sys2Proof.Machine.execClaimEntryExpiry dt s
  | .retryTimerExpiry dt => Sys2Proof.Machine.execRetryTimerExpiry dt s
  | .inhibitTimerExpiry dt => Sys2Proof.Machine.execInhibitTimerExpiry dt s
  | .softStartStep dt => Sys2Proof.Machine.execSoftStartStep dt s
  | .loadTrip dt => Sys2Proof.Machine.execLoadTrip dt s
  | .endSwitchActive event => Sys2Proof.Machine.execEndSwitchActive event s
  | .forwardTimeLimit dt => Sys2Proof.Machine.execForwardTimeLimit dt s
  | .dwellEnd dt => Sys2Proof.Machine.execDwellEnd dt s
  | .homeSwitchActive dt reading => Sys2Proof.Machine.execHomeSwitchActive dt reading s
  | .reverseTimeLimit dt => Sys2Proof.Machine.execReverseTimeLimit dt s
  | .homingDriveStart dt => Sys2Proof.Machine.execHomingDriveStart dt s
  | .homeSwitchSettled dt isActive reading => Sys2Proof.Machine.execHomeSwitchSettled dt isActive reading s
  | .lineIdle dt => Sys2Proof.Machine.execLineIdle dt s
  | .deferWaitEnd dt => Sys2Proof.Machine.execDeferWaitEnd dt s
  | .collision dt => Sys2Proof.Machine.execCollision dt s
  | .transmissionSent dt supplyLow => Sys2Proof.Machine.execTransmissionSent dt supplyLow s
  | .receptionEnd dt normal inverted => Sys2Proof.Machine.execReceptionEnd dt normal inverted s
  | .silenceTimerExpiry dt => Sys2Proof.Machine.execSilenceTimerExpiry dt s
  | .correctionTimerExpiry dt => Sys2Proof.Machine.execCorrectionTimerExpiry dt s
  | .noticeTimerExpiry dt => Sys2Proof.Machine.execNoticeTimerExpiry dt s
  | .fillNotice dt => Sys2Proof.Machine.execFillNotice dt s
  | .viewEntryExpiry dt => Sys2Proof.Machine.execViewEntryExpiry dt s
  | .redirectNotice dt => Sys2Proof.Machine.execRedirectNotice dt s
  | .expectEntryExpiry dt => Sys2Proof.Machine.execExpectEntryExpiry dt s
  | .resendTimerExpiry dt => Sys2Proof.Machine.execResendTimerExpiry dt s
  | .lapseRestExpiry dt => Sys2Proof.Machine.execLapseRestExpiry dt s
  | .holdOffExpiry dt => Sys2Proof.Machine.execHoldOffExpiry dt s
  | .callAnswer dt => Sys2Proof.Machine.execCallAnswer dt s
  | .call dt => Sys2Proof.Machine.execCall dt s
  | .callJoin dt => Sys2Proof.Machine.execCallJoin dt s
  | .depotFrame dt chars => Sys2Proof.Machine.execDepotFrame dt chars s
  | .depotFrameTimeout dt => Sys2Proof.Machine.execDepotFrameTimeout dt s
  | .depotToLineOffer dt => Sys2Proof.Machine.execDepotToLineOffer dt s
  | .depotFrameSend dt cts => Sys2Proof.Machine.execDepotFrameSend dt cts s
  | .depotFrameEnd dt => Sys2Proof.Machine.execDepotFrameEnd dt s
  | .answerTimerExpiry dt => Sys2Proof.Machine.execAnswerTimerExpiry dt s
  | .relayClockSecond dt => Sys2Proof.Machine.execRelayClockSecond dt s
  | .originationTimerExpiry dt => Sys2Proof.Machine.execOriginationTimerExpiry dt s
  | .statusRequest dt => Sys2Proof.Machine.execStatusRequest dt s
  | .statusAnswer dt => Sys2Proof.Machine.execStatusAnswer dt s
  | .resetPinHeld dt => Sys2Proof.Machine.execResetPinHeld dt s
  | .supplyFails dt => Sys2Proof.Machine.execSupplyFails dt s
  | .receptionBegins dt => Sys2Proof.Machine.execReceptionBegins dt s
  | .homeSwitchChange dt isActive => Sys2Proof.Machine.execHomeSwitchChange dt isActive s

end Sys2Proof.Machine
end

