-- ==== Sys2Proof/Machine/Step.lean ====
section
/-! DEFINITION. One step of the block: the command at the front of the queue is run on the node with the queue's rest. -/

namespace Sys2Proof.Machine

/-- One step: the command that has waited longest is taken, and its meaning is run with the rest of the queue; with no
command waiting the block idles (DESIGN CHOICE, log entry 29). -/
def step (s : State) : Host.Outcome State Fault Refusal :=
  match s.pending with
  | [] => .next s
  | i :: rest => exec i ⟨s.node, rest⟩

/-- The state with the command that a word spells in front of its queue. The spec gives no command any bits, so no word
spells one, and the state is as it was. -/
def State.withFetchWord (s : State) (nbits w : Nat) : State :=
  match decodeTableWord nbits w with
  | some i => ⟨s.node, i :: s.pending⟩
  | none => s

end Sys2Proof.Machine
end

