-- ==== Sys2Proof/Safety.lean ====
section
/-! DEFINITION. What a safe node is, in the terms the statements use: the laws the spec says the station keeps, each a
predicate of the node, and the premises under which commands act. -/

namespace Sys2Proof

/-- The microseconds of the timebase since the command before (DESIGN CHOICE, log entry 1). -/
def Instr.dt : Instr → Nat
  | .powerOn dt => dt
  | .resetPin dt => dt
  | .restart dt => dt
  | .configurationRead dt _ => dt
  | .soundingDue dt _ => dt
  | .pingSlotStart dt => dt
  | .burstEnd dt => dt
  | .blankingEnd dt => dt
  | .echoEdge dt => dt
  | .pingWindowEnd dt => dt
  | .soundingEnd dt => dt
  | .periodicTimerExpiry dt => dt
  | .cardRead dt _ => dt
  | .readError dt => dt
  | .windowExpiry dt => dt
  | .lockPullInEnd dt => dt
  | .deferredReleaseExpiry dt => dt
  | .servicePeriodExpiry dt => dt
  | .indicationExpiry dt => dt
  | .buzzerToneEnd dt => dt
  | .hatchSettled dt _ _ => dt
  | .hatchOpen dt => dt
  | .hatchClosed dt _ => dt
  | .hatchStuck dt => dt
  | .liftSettled dt _ _ => dt
  | .lift dt => dt
  | .seat dt _ => dt
  | .cardUpdate dt => dt
  | .add dt => dt
  | .remove dt => dt
  | .clear dt => dt
  | .revokeAdd dt => dt
  | .revokeRemove dt => dt
  | .revokeClear dt => dt
  | .clearRowWrite dt => dt
  | .cardTableScanEnd dt => dt
  | .rowProgramEnd dt => dt
  | .recordAppend dt => dt
  | .accountingWrite dt => dt
  | .confirmMarkWrite dt => dt
  | .logScanEnd dt => dt
  | .harvestRequest dt => dt
  | .harvestAnswer dt => dt
  | .harvestConfirm dt => dt
  | .tallyNotice dt => dt
  | .clockSecond dt => dt
  | .time dt => dt
  | .pressClaim dt => dt
  | .pressRelease dt => dt
  | .claimEntryExpiry dt => dt
  | .retryTimerExpiry dt => dt
  | .inhibitTimerExpiry dt => dt
  | .softStartStep dt => dt
  | .loadTrip dt => dt
  | .endSwitchActive event => event.dt
  | .forwardTimeLimit dt => dt
  | .dwellEnd dt => dt
  | .homeSwitchActive dt _ => dt
  | .reverseTimeLimit dt => dt
  | .homingDriveStart dt => dt
  | .homeSwitchSettled dt _ _ => dt
  | .lineIdle dt => dt
  | .deferWaitEnd dt => dt
  | .collision dt => dt
  | .transmissionSent dt _ => dt
  | .receptionEnd dt _ _ => dt
  | .silenceTimerExpiry dt => dt
  | .correctionTimerExpiry dt => dt
  | .noticeTimerExpiry dt => dt
  | .fillNotice dt => dt
  | .viewEntryExpiry dt => dt
  | .redirectNotice dt => dt
  | .expectEntryExpiry dt => dt
  | .resendTimerExpiry dt => dt
  | .lapseRestExpiry dt => dt
  | .holdOffExpiry dt => dt
  | .callAnswer dt => dt
  | .call dt => dt
  | .callJoin dt => dt
  | .depotFrame dt _ => dt
  | .depotFrameTimeout dt => dt
  | .depotToLineOffer dt => dt
  | .depotFrameSend dt _ => dt
  | .depotFrameEnd dt => dt
  | .answerTimerExpiry dt => dt
  | .relayClockSecond dt => dt
  | .originationTimerExpiry dt => dt
  | .statusRequest dt => dt
  | .statusAnswer dt => dt
  | .resetPinHeld dt => dt
  | .supplyFails dt => dt
  | .receptionBegins dt => dt
  | .homeSwitchChange dt _ => dt

end Sys2Proof

namespace Sys2Proof.Machine

/-! ### Who acts -/

/-- A station whose read has ended with a good configuration, supplied and not held by the RESET pin. -/
abbrev Node.StationRuns (n : Node) : Prop :=
  n.live = true ∧ n.control.phase = .running ∧ n.control.settings.role = .station

/-- A station whose read has ended, in SAFE or not, supplied and not held by the RESET pin: the hatch controller, the card
table, the tally unit, the clock, the store and the log act in SAFE too (R68, R79, R85, R109). -/
abbrev Node.StationActs (n : Node) : Prop := n.live = true ∧ n.control.settings.role = .station

/-- A relay in RUNNING, supplied and not held by the RESET pin. -/
abbrev Node.RelayRuns (n : Node) : Prop :=
  n.live = true ∧ n.control.phase = .running ∧ n.control.settings.role = .relay ∧ n.relay.phase = .running

/-! ### Capacities -/

/-- No collection of the node holds more than the spec gives it: the transmit queue 6 (R138), the receive buffer 4 (R145),
the staging queue 4 (R88), the island claim list 8 (R116), the tally table 384 (R69), the view table 32 (R152), the
redirect-expect list 16 (R156), the relay's queues 16 each (R175) and its outstanding requests 8 (R180). -/
structure Node.WithinCapacities (n : Node) : Prop where
  transmitQueue : n.line.queue.length ≤ queueCapacity
  receiveBuffer : n.line.buffer.length ≤ bufferCapacity
  stagingQueue  : n.store.staging.length ≤ stagingCapacity
  claimList     : n.press.claims.length ≤ claimCapacity
  tallyTable    : n.tally.entries.length ≤ tallyCapacity
  viewTable     : n.neighbour.views.length ≤ viewCapacity
  expectList    : n.neighbour.expected.length ≤ expectCapacity
  lineToDepot   : n.relay.lineToDepot.length ≤ relayCapacity
  depotToLine   : n.relay.depotToLine.length ≤ relayCapacity
  outstanding   : n.relay.outstanding.length ≤ outstandingCapacity

/-! ### The laws of the station -/

/-- The FULL law (R18): while FULL is set the fill value is known and above the full threshold − 50. While the
configuration is being read FULL is clear (R1). -/
def Node.FullLaw (n : Node) : Prop :=
  (n.sounding.full = true → ∃ f, n.sounding.fill = some f ∧ n.control.settings.fullThreshold - 50 < f) ∧
    (n.control.phase = .reading → n.sounding.full = false)

/-- The log law (R98): at most 1,024 records are held, and their sequence numbers are consecutive and rising from oldest to
newest, the newest being the one before the next sequence number; no overflow deposit is among them. -/
def Node.LogLaw (n : Node) : Prop :=
  n.log.held.length ≤ logCapacity ∧
    (∀ k r, n.log.held[k]? = some r →
      r.seq = n.log.accounting.next - BitVec.ofNat 24 n.log.held.length + BitVec.ofNat 24 k) ∧
    ∀ r ∈ n.log.held, r.entry.isOverflow = false

/-- The lock law (R58): the lock is driven only while a release window is open and the press reads at home. -/
def Node.LockLaw (n : Node) : Prop :=
  n.hatch.lock ≠ .off → n.hatch.window.isSome = true ∧ n.pressHome = true

/-- What the lock law rests on: a window stands with the phase WINDOW, the hatch closed and the press at home (R57, R60); a
deferred release waits with the hatch closed (R59); and before the read has ended nothing is released (R43). -/
structure Node.ReleaseLaw (n : Node) : Prop where
  driven   : n.hatch.lock ≠ .off → n.hatch.phase = .window
  window   : n.hatch.phase = .window → n.hatch.window.isSome = true ∧ n.pressHome = true ∧ n.hatch.hatch = .closed
  deferred : n.hatch.phase = .deferred → n.hatch.hatch = .closed
  reading  : n.control.phase = .reading → n.hatch.phase = .idle

/-- The card table's law (R27, R35, R38, R40): the occupied slots and the held positions each stand once, in order and
within their number; no bucket holds a card number twice and no revoked number is held twice; the two counts count them, and
the check value is the sum of the records' CRC-16 values. While the configuration is being read the table is SCANNING (R26). -/
structure Node.CardLaw (n : Node) : Prop where
  slots       : n.cards.slots.Pairwise (fun a b => a.1 < b.1)
  slotRange   : ∀ p ∈ n.cards.slots, p.1 < 4 * bucketCount
  once        : ∀ p ∈ n.cards.slots, ∀ q ∈ n.cards.slots, p.1 / 4 = q.1 / 4 → p.2.number = q.2.number → p.1 = q.1
  entries     : n.cards.entries = n.cards.slots.length
  checkValue  : n.cards.checkValue = (n.cards.slots.map (fun p => recordCrc p.2)).sum
  positions   : n.cards.revoked.Pairwise (fun a b => a.1 < b.1)
  range       : ∀ p ∈ n.cards.revoked, p.1 < revocationPositions
  revokedOnce : ∀ p ∈ n.cards.revoked, ∀ q ∈ n.cards.revoked, p.2 = q.2 → p.1 = q.1
  revocations : n.cards.revocations = n.cards.revoked.length
  reading     : n.control.phase = .reading → n.cards.phase = .scanning

/-- The tally table's law (R69, R71, R72): no card has two entries, the counts and the touch counter stay within their ranges,
and no two entries carry the same stamp, none of them later than the touch counter. -/
structure Node.TallyLaw (n : Node) : Prop where
  capacity : n.tally.entries.length ≤ tallyCapacity
  once     : n.tally.entries.Pairwise (fun a b => a.card ≠ b.card)
  counts   : ∀ e ∈ n.tally.entries, e.loc ≤ 15 ∧ e.heard ≤ 63 ∧ e.stamp ≤ n.tally.touches
  stamps   : n.tally.entries.Pairwise (fun a b => a.stamp ≠ b.stamp)
  touches  : n.tally.touches ≤ lastTouch

/-- The cells of the store are in their canonical form: addresses rising, no listed byte 0 (R87, R193). -/
def Node.StoreForm (n : Node) : Prop := Memory.wf n.store.cells = true

/-- What is kept of the staging queue for the unit that waited as an entry freed (R89, log entry 7): the entries kept for the
deposit log and for the card table are free ones, the log keeps some only while it has writes waiting, and the card table no
more than it has rows to place. -/
structure Node.FreedLaw (n : Node) : Prop where
  room  : n.store.staging.length + n.store.forLog + n.store.forCards ≤ stagingCapacity
  log   : 0 < n.store.forLog → n.log.hasWork = true
  cards : n.store.forCards ≤ n.cards.rowsWaiting

/-- The press drive law's state (R120): forward drive only in FORWARD, none of the two outputs in HOME, CLAIMING, DWELL,
FAULT, INHIBITED and STOPPED, and the two outputs never on together. What the dead interval rests on: a dwell ends, and a
forward drive that waits begins, no earlier than 250 ms after both outputs went off; a press that returns or stands in FAULT
was not driven forward last. -/
structure Node.DriveLaw (n : Node) : Prop where
  driven    : n.press.drive.isSome = true → n.press.state = .forward ∨ n.press.state = .reversing
  forward   : ∀ d, n.press.drive = some d → n.press.state = .forward → d.direction = .forward
  reverse   : ∀ d, n.press.drive = some d → n.press.state = .reversing → d.direction = .reverse
  waits     : n.press.forwardDue.isSome = true → n.press.state = .forward ∧ n.press.drive = none
  reading   : n.control.phase = .reading → n.press.state = .reversing ∧ n.press.drive = none ∧ n.press.forwardDue = none
  off       : n.press.offSince ≤ n.now
  dwell     : ∀ t, n.press.state = .dwell → n.press.dwellEnds = some t → n.press.offSince + deadInterval ≤ t
  due       : ∀ t, n.press.forwardDue = some t → n.press.offSince + deadInterval ≤ t
  returning : n.press.state = .reversing ∨ n.press.state = .fault → n.press.lastDirection ≠ some .forward

/-- What the second press drive law rests on (R120): a stroke that is driven forward, or that is to return or returns without
an interruption, finds the hatch closed and the insert seated, and a paused return is not driven (R125). With no press fitted,
and while the configuration is being read, the press has not left its start, and with none fitted nothing is driven or waits to
be (R128, R184). -/
structure Node.QuietLaw (n : Node) : Prop where
  quiet    : n.press.state = .forward ∨ (n.press.state = .dwell ∧ n.press.kind = .normal) ∨
    (n.press.state = .reversing ∧ n.press.kind = .normal ∧ n.press.paused = false) →
    n.hatch.hatch = .closed ∧ n.hatch.lift = .seated
  paused   : n.press.state = .reversing → n.press.kind = .normal → n.press.paused = true → n.press.drive = none
  unfitted : n.control.settings.pressFitted = false →
    (n.press.state = .stopped ∨ (n.press.state = .reversing ∧ n.press.kind = .homing)) ∧ n.press.drive = none ∧
      n.press.forwardDue = none
  reading  : n.control.phase = .reading → n.press.state = .reversing ∧ n.press.kind = .homing

/-- The content of a FILL NOTICE calls for a new one, by the comparison with the last notice (R150): fills 50‰ apart or more, one
fill known and the other not, or another flag or call state. -/
def NoticeContent.CallsForNotice (c last : NoticeContent) : Prop :=
  (match c.fill, last.fill with
    | some a, some b => 50 ≤ (a - b) + (b - a)
    | none, none => False
    | some _, none => True
    | none, some _ => True) ∨
  c.full ≠ last.full ∨ c.sensorFault ≠ last.sensorFault ∨ c.pressFault ≠ last.pressFault ∨
    c.outOfService ≠ last.outOfService ∨ c.hatchStuck ≠ last.hatchStuck ∨ c.service ≠ last.service ∨
    c.callState ≠ last.callState

/-- The call's law (R160): a call has a tag exactly while it is open. A relay, which has no call unit (09), has none open, and
neither has a node whose configuration is being read. -/
structure Node.CallLaw (n : Node) : Prop where
  tag   : n.call.tag = none ↔ n.call.state = .none
  quiet : n.control.settings.role = .relay ∨ n.control.phase = .reading → n.call.state = .none

/-- The notice law (R150): in ACTIVE there is a last notice, and the present content does not call for another. While the
configuration is being read the unit is SILENT (R148). -/
structure Node.NoticeLaw (n : Node) : Prop where
  current : n.neighbour.phase = .active →
    ∃ last, n.neighbour.last = some last ∧ ¬ n.noticeContent.CallsForNotice last
  reading : n.control.phase = .reading → n.neighbour.phase = .silent

/-! ### What the statements say more than once -/

/-- The sounding unit after a cause that arms a request due later than now (R19): it makes the request, or moves the one held to
the later due time with the markers of both; a sounding in flight goes on. -/
def Sounding.armedFor (u : Sounding) (due : Moment) (start repeats : Bool) : Sounding :=
  { u with
    request := some (match u.request with
      | none => ⟨due, start, repeats⟩
      | some r => ⟨max r.due due, r.start || start, r.repeats || repeats⟩)
    phase := match u.phase with
      | .idle => .waiting
      | .held => .waiting
      | p => p }

/-- The sounding unit after an event at `now` that abandons a sounding in flight (R22): its markers return in a request due 3 s
later, in WAITING; with none in flight nothing changes. -/
def Sounding.abandonedAt (u : Sounding) (now : Moment) : Sounding :=
  match u.flight with
  | none => u
  | some f => ({ u with flight := none, phase := .waiting } : Sounding).armedFor (now + 3000000) f.start f.repeats

/-- A request whose due time has passed as the deferral conditions are asked again (R3, R21): with the press at home, the hatch
closed and the insert seated it becomes a sounding in flight, and else it is HELD. -/
def Sounding.triedAt (u : Sounding) (now : Moment) (free : Prop) [Decidable free] (reading : Option Int) : Sounding :=
  match u.request with
  | none => u
  | some r =>
    if (u.phase = .waiting ∨ u.phase = .held) ∧ r.due ≤ now then
      if free then
        { u with
          phase := .inFlight
          request := none
          flight := some ⟨r.start, r.repeats, soundingTemperature reading, [], none, none⟩ }
      else { u with phase := .held }
    else u

/-- What a rollover passes with the day close (R81, R98, log entry 48): of the append list the items `items`, in which every
DEPOSIT that will find the log full, with the items ahead of it appended, is an overflow deposit, and the overflow count
`overflow`, which counts those. -/
def Log.ClosesWith (l : Log) (items : List LogEntry) (overflow : Nat) : Prop :=
  let findsFull (k : Nat) : Prop :=
    1024 ≤ l.held.length + ((l.appendList.take k).filter (fun e => !e.isOverflow)).length
  let counted := (items.filter (·.isOverflow)).length - (l.appendList.filter (·.isOverflow)).length
  items.length = l.appendList.length ∧
    (∀ k e, l.appendList[k]? = some e →
      items[k]? = some (if e.isDeposit = true ∧ findsFull k then { e with body := .overflowDeposit } else e)) ∧
    overflow = if counted = 0 then l.accounting.overflowCount else min 65535 (l.accounting.overflowCount + counted)

/-- The FILL NOTICE of the node's present content (R149, 12.1). -/
def Node.presentNotice (n : Node) : Telegram :=
  let c := n.control.settings
  let flags := bit n.sounding.full 0 + bit n.sounding.sensorFault 1 +
    bit (c.pressFitted && n.press.state == .fault) 2 + bit (n.hatch.station == .outOfService) 3 +
    bit n.hatch.stuck 4 + bit n.hatch.service.isSome 5
  n.telegram .fillNotice 0
    ([BitVec.ofNat 8 c.fraction.code] ++ bytesOf 2 c.position ++ bytesOf 2 (n.sounding.fill.getD 65535) ++
      [BitVec.ofNat 8 flags, BitVec.ofNat 8 n.call.state.code])

/-- What the neighbour unit in ACTIVE makes of a step's changes (R150): when the content after it calls for a notice, that content
is the last notice, the notice timer has 60 min, and the FILL NOTICE waits in the transmit queue where it has room; else
the unit is as it was. -/
def Node.NoticeFollows (before after : Node) : Prop :=
  ∀ last, before.neighbour.phase = .active → before.neighbour.last = some last →
    (¬ after.noticeContent.CallsForNotice last → after.neighbour = before.neighbour) ∧
    (after.noticeContent.CallsForNotice last →
      after.neighbour = { before.neighbour with
        last := some after.noticeContent, lastAt := some after.now, timer := some (after.now + 3600000000) } ∧
      (before.control.phase ≠ .safe → before.line.queue.length ≤ 2 →
        ∃ e ∈ after.line.queue, e.telegram = after.presentNotice ∧ e.sending = false))

/-- The conditions of the trigger of a claim (R112), in a station with a press in HOME, with what a step leaves. -/
def Node.ClaimDue (before after : Node) : Prop :=
  let c := before.control.settings
  c.pressFitted = true ∧ before.press.state = .home ∧ before.press.retry = none ∧
    (after.hatch.station = .ready ∨ after.hatch.station = .service) ∧
    ((∃ f, after.sounding.fill = some f ∧ c.pressThreshold ≤ f) ∨ after.sounding.full = true) ∧
    4 ≤ after.press.deposits ∧ after.inPressHours = true ∧ after.hatch.phase = .idle ∧ after.hatch.hatch = .closed ∧
    after.hatch.lift = .seated ∧ after.sounding.flight = none

/-- The trigger of a claim, evaluated in HOME with the conditions as a step leaves them (R112, R114): when all hold a PRESS
CLAIM of 50 s is queued and the press is CLAIMING; else its state and claim are as they were. -/
def Node.ClaimsWhenTriggered (before after : Node) : Prop :=
  (Node.ClaimDue before after → before.line.queue.length ≤ 2 →
    after.press.state = .claiming ∧ after.press.claim = .queued ∧
      ∃ x ∈ after.line.queue, x.owner = .pressUnit ∧
        x.telegram = before.telegram .pressClaim 0 [BitVec.ofNat 8 before.control.settings.island, 50]) ∧
    (¬ Node.ClaimDue before after → after.press.state = before.press.state ∧ after.press.claim = before.press.claim)

/-- Steps 2 to 12 of card evaluation (R51 to R55, R57, R59) of a card at `now`, with the card table `cards`: the first step whose
condition holds gives the outcome. Crew cards and the card whose own acceptance is pending are spoken of elsewhere. -/
def Node.JudgedFromStep2 (before after : Node) (cards : Cards) (now : Moment) (card : CardNumber) : Prop :=
  let h := before.hatch
  let refused (code : Nat) : Prop := after.hatch.panel = some ⟨.refusal code, some (now + 4000000)⟩
  if cards.isRevoked card = true then refused 11
  else
    match cards.lookup card with
    | none => refused 12
    | some r =>
      if r.status = .suspended then refused 13
      else if r.cls = .crew then True
      else if h.station = .safe ∨ h.station = .outOfService then refused 90
      else if r.rights.getLsbD before.control.settings.fraction.code = false then refused 14
      else if h.ownPending card = true then True
      else if h.phase ≠ .idle ∨ h.hatch ≠ .closed ∨ h.lift ≠ .seated ∨ before.holdingOccupied = true then refused 30
      else if before.sounding.full = true then
        match Node.redirectTarget { before with now := now } with
        | some v => after.hatch.panel = some ⟨.redirect v.island, some (now + 4000000)⟩
        | none =>
          refused (if before.call.state = .scheduled ∧ before.call.round.map (·.1) = some before.clock.day then 21 else 20)
      else if ∃ k, before.tallyInUse.knownCount r.number = some k ∧ r.allowance.toNat ≠ 15 ∧ r.allowance.toNat ≤ k then
        refused 15
      else
        after.hatch.acceptance =
          some ⟨r.number, r.cls, some r.band, (before.tallyInUse.knownCount r.number).isNone, now⟩ ∧
        if before.pressHome = true then
          after.hatch.phase = .window ∧ after.hatch.window = some (now + 10000000) ∧
            after.hatch.lock = .pullIn (now + 300000) ∧ after.hatch.panel = some ⟨.accept, none⟩
        else
          after.hatch.phase = .deferred ∧ after.hatch.deferred = some (now + 20000000) ∧ after.hatch.lock = h.lock ∧
            after.hatch.panel = some ⟨.deferred, none⟩

/-- The crew window of a crew card at `now` (R60): with the press away none opens (code 32), and what is held goes on; with the
hatch not free or a release held for another card none either (code 30); else the card gets, or keeps, a window of 10 s. -/
def Node.CrewWindowGiven (before after : Node) (now : Moment) (card : CardNumber) : Prop :=
  let h := before.hatch
  if before.pressHome = false then after.hatch.panel = some ⟨.refusal 32, some (now + 4000000)⟩ ∧
    after.hatch.phase = h.phase ∧ after.hatch.window = h.window ∧ after.hatch.deferred = h.deferred ∧
    after.hatch.acceptance = h.acceptance ∧ after.hatch.lock = h.lock
  else if h.hatch ≠ .closed ∨ h.lift ≠ .seated ∨ h.phase = .deposit ∨ h.phase = .crewOpening ∨
      h.phase = .forcedOpening ∨ ((h.phase = .window ∨ h.phase = .deferred) ∧ h.ownPending card = false) then
    after.hatch.panel = some ⟨.refusal 30, some (now + 4000000)⟩ ∧ after.hatch.window = h.window
  else
    after.hatch.phase = .window ∧ after.hatch.window = some (now + 10000000) ∧
      after.hatch.lock = .pullIn (now + 300000) ∧ after.hatch.acceptance.map (·.card) = some card

/-- The start conditions of R45 at a station in STARTING, where `met` says that they hold: it leaves STARTING for READY, or for
SERVICE while a service period runs, and the neighbour unit is ACTIVE (R151). A station that does not leave STARTING so
stays in its state. -/
def Node.StartsWhen (met : Prop) (before after : Node) : Prop :=
  (before.hatch.station = .starting ∧ met →
    after.hatch.conditionsMet = true ∧ after.hatch.station = (if after.hatch.service.isSome then .service else .ready) ∧
      (before.neighbour.phase = .silent → after.neighbour.phase = .active)) ∧
    (¬ (before.hatch.station = .starting ∧ met) → after.hatch.station = before.hatch.station)

/-- Raising is evaluated when `raising` holds (R160, R161): a station that is READY then, in call state NONE and with a known fill
at or above the call threshold or FULL, has raised an own call with the tag after the last one used, which is out as soon as
the polarity lets it be sent (R162). Else the call is as it was. -/
def Node.RaisesCallWhen (raising : Prop) (before after : Node) : Prop :=
  let due := raising ∧ before.call.stopped = false ∧ before.call.state = .none ∧ after.hatch.station = .ready ∧
    ((∃ f, after.sounding.fill = some f ∧ before.control.settings.callThreshold ≤ f) ∨ after.sounding.full = true)
  let tag := (before.call.lastTag + 1) % 64
  (due →
    after.call.state = (if before.line.polarity = .undetected then .pending else .awaiting) ∧
      after.call.tag = some tag ∧ after.call.lastTag = tag ∧ after.call.lead = none ∧ after.call.round = none ∧
      after.call.stale = before.call.stale) ∧
    (¬ due → after.call = before.call)

/-- What follows an operation of a CARD UPDATE once it has been worked, where `line` is the line unit with the fault that the
operation may have queued (R29, R31): after the last operation the telegram leaves the receive buffer if it still stands
there; an operation of unknown kind next ends the telegram with UPDATE FAULT, card number 0 and MALFORMED; any other waits to
be worked. -/
def Node.UpdateGoesOn (line : Line) (rest : List (Nat × CardOp)) (buffered : Bool) (before after : Node) : Prop :=
  let left := if buffered then line.buffer.eraseP (fun r => r.telegram.kind == .cardUpdate) else line.buffer
  (rest = [] → after.cards.update = none ∧ after.line = { line with buffer := left }) ∧
    ∀ i next tail, rest = (i, next) :: tail →
      (next ≠ .unknown → after.cards.update = some ⟨rest, buffered⟩ ∧ after.line = line) ∧
      (next = .unknown → line.queue.length < queueCapacity → before.control.phase ≠ .safe →
        after.cards.update = none ∧ after.line = { line with
          buffer := left
          queue := insertEntry
            ⟨before.telegram .updateFault toRelay [BitVec.ofNat 8 i, 0, 0, 0, 0, 2], 1, line.nextAge, 0, false, .cardTable⟩
            line.queue
          nextAge := line.nextAge + 1 })

/-- At most one of the two press outputs is on (R120). -/
def Node.OneDrive (n : Node) : Prop := n.forwardOutput = .off ∨ n.reverseOutput = .off

end Sys2Proof.Machine
end

