-- ==== Sys2Proof/Certificates/Slice0/Obligations.lean ====
section
/-! DEFINITION. The statements for the provers: what the commands of the NL84 do, unit by unit, and what every command
keeps. A command's `dt`, and the moment of a timer's end (`max (s.node.now + dt) t`), are the model's choices (log entries 1
and 2). `StationRuns`, `StationActs`, which takes SAFE in, and `RelayRuns` are the premises under which a unit acts
(Safety.lean). A statement with a next state
written out says the frame with it: every field that is not named is as it was. -/

open Sys2Proof Sys2Proof.Machine

/-! ### The block as a whole -/

/-- One step runs the command at the front of the queue on the node with the queue's rest; an empty queue idles, which is
the model's choice (log entry 29). -/
def Obligations.StepRunsFrontCommand : Prop :=
  (∀ (c : Instr) (n : Node) (rest : List Instr), step ⟨n, c :: rest⟩ = exec c ⟨n, rest⟩) ∧
    ∀ n : Node, step ⟨n, []⟩ = .next ⟨n, []⟩

/-- Every command answers a next state, leaves the queue of waiting commands alone and takes the timebase on by at least
its `dt` (log entries 1 to 3). Before the outcome of the read, without supply or with the RESET pin held, no unit acts (R185,
R188): a command other than those of the supply, the pin and the read only lets time pass. -/
def Obligations.EveryCommandGoesForward : Prop :=
  (∀ (c : Instr) (s : State), ∃ n : Node, exec c s = .next ⟨n, s.pending⟩ ∧ s.node.now + c.dt ≤ n.now) ∧
  ∀ (c : Instr) (s : State), s.node.live = false →
    (∀ dt, c ≠ .powerOn dt) → (∀ dt, c ≠ .resetPin dt) → (∀ dt, c ≠ .resetPinHeld dt) →
    (∀ dt, c ≠ .supplyFails dt) → (∀ dt block, c ≠ .configurationRead dt block) →
    exec c s = .next ⟨{ s.node with now := s.node.now + c.dt }, s.pending⟩

/-! ### Sounding (01) -/

/-- SOUNDING_DUE (R3, R21): at the due time the request becomes a sounding in flight with its markers and the temperature
of R4, or waits in HELD while the hatch reads open, the lift lifted or the press away from home. PERIODIC_TIMER_EXPIRY (R19,
R20): the timer stops and a request due at once is armed, or the request held moves to the later due time with its markers.
Nothing else changes. -/
def Obligations.SoundingRequestComesDue : Prop :=
  (∀ (s : State) (dt : Nat) (reading : Option Int) (r : SoundingRequest),
     s.node.StationRuns → s.node.sounding.phase = .waiting → s.node.sounding.request = some r →
     exec (.soundingDue dt reading) s = .next
       ⟨{ s.node with
           now := max (s.node.now + dt) r.due
           sounding :=
             if s.node.hatch.hatch ≠ .closed ∨ s.node.hatch.lift ≠ .seated ∨ s.node.pressHome = false then
               { s.node.sounding with phase := .held }
             else
               { s.node.sounding with
                 phase := .inFlight
                 request := none
                 flight := some ⟨r.start, r.repeats, soundingTemperature reading, [], none, none⟩ } }, s.pending⟩) ∧
  ∀ (s : State) (dt : Nat) (t : Moment), s.node.StationRuns → s.node.sounding.periodic = some t →
    s.node.sounding.phase ≠ .stopped →
    let now' := max (s.node.now + dt) t
    let request := match s.node.sounding.request with
      | none => SoundingRequest.mk now' false false
      | some r => { r with due := max r.due now' }
    exec (.periodicTimerExpiry dt) s = .next
      ⟨{ s.node with
          now := now'
          sounding := { s.node.sounding with
            periodic := none
            request := some request
            phase := match s.node.sounding.phase with
              | .idle => .waiting
              | .held => if now' < request.due then .waiting else .held
              | p => p } }, s.pending⟩

/-- The temperature of a sounding (R4): a reading from −40 to +85 °C is clamped to −30 to +60 °C, and one outside that
range, or none, gives 15 °C. The speed of sound (R9): 3,313 plus the quotient 606 × T / 100 rounded half away from zero; from
−30 to +60 °C it lies between 3,131 and 3,677. The distance (R10) and the measured fill (R11), with the bounds the two rules
give. -/
def Obligations.SpeedDistanceAndFillOfAPing : Prop :=
  (soundingTemperature none = 15 ∧
     ∀ t : Int,
       ((t < -40 ∨ 85 < t) → soundingTemperature (some t) = 15) ∧
       (-40 ≤ t → t ≤ 85 → soundingTemperature (some t) = max (-30) (min 60 t))) ∧
  (∀ t : Int, -30 ≤ t → t ≤ 60 →
     ∃ q : Int, (speedOfSound t : Int) = 3313 + q ∧ 2 * |606 * t - 100 * q| ≤ 100 ∧
       (2 * |606 * t - 100 * q| = 100 → |606 * t| < |100 * q|) ∧ 3131 ≤ speedOfSound t ∧ speedOfSound t ≤ 3677) ∧
  (∀ t v : Nat, distanceOf t v = (t * v + 10000) / 20000) ∧
    (∀ t v : Nat, t ≤ 24000 → v ≤ 3677 → t * v + 10000 < 2 ^ 32 ∧ distanceOf t v ≤ 4412) ∧
    distanceOf 24000 3677 = 4412 ∧
    ∀ e0 f0 d : Nat, 100 ≤ f0 → e0 ≤ 4000 → f0 + 200 ≤ e0 →
      (e0 ≤ d → measuredFill e0 f0 d = 0) ∧
      (d ≤ f0 → measuredFill e0 f0 d = 1000) ∧
      (f0 < d → d < e0 →
        measuredFill e0 f0 d = (e0 - d) * 1000 / (e0 - f0) ∧ measuredFill e0 f0 d ≤ 999 ∧ (e0 - d) * 1000 < 4000000)

/-- PING_SLOT_START, BURST_END, BLANKING_END, ECHO_EDGE and PING_WINDOW_END (R5, R6): slot k begins (k − 1) × 60 ms after
the first burst with the burst driven; the burst ends after 200 µs; the echo input is watched from the blanking time on; the
first edge up to 24,000 µs inclusive gives the ping result, every other edge nothing; without an edge it is NONE. Only the
sounding in flight changes. -/
def Obligations.PingSlotRunsItsCourse : Prop :=
  ∀ (s : State) (dt : Nat) (f : Flight), s.node.StationRuns → s.node.sounding.flight = some f →
    (let begun := f.results.length + (if f.slot.isSome then 1 else 0)
     let now' := match f.firstBurst with
       | none => s.node.now + dt
       | some t => max (s.node.now + dt) (t + begun * 60000)
     begun < s.node.control.settings.pingCount →
      exec (.pingSlotStart dt) s = .next
        ⟨{ s.node with
            now := now'
            sounding := { s.node.sounding with
              flight := some { f with
                results := f.results ++ (f.slot.map (·.echo)).toList
                firstBurst := some (f.firstBurst.getD (s.node.now + dt))
                slot := some ⟨now', true, .blanking, none⟩ } } }, s.pending⟩) ∧
    ∀ sl : PingSlot, f.slot = some sl →
      (sl.driving = true →
        exec (.burstEnd dt) s = .next
          ⟨{ s.node with
              now := max (s.node.now + dt) (sl.began + 200)
              sounding := { s.node.sounding with
                flight := some { f with slot := some { sl with driving := false } } } }, s.pending⟩) ∧
      (sl.watch = .blanking →
        exec (.blankingEnd dt) s = .next
          ⟨{ s.node with
              now := max (s.node.now + dt) (sl.began + s.node.control.settings.blanking)
              sounding := { s.node.sounding with
                flight := some { f with slot := some { sl with watch := .watching } } } }, s.pending⟩) ∧
      exec (.echoEdge dt) s = .next
        ⟨{ s.node with
            now := s.node.now + dt
            sounding :=
              if sl.watch = .watching ∧ s.node.now + dt - sl.began ≤ 24000 then
                { s.node.sounding with
                  flight := some { f with
                    slot := some { sl with watch := .over, echo := some (s.node.now + dt - sl.began) } } }
              else s.node.sounding }, s.pending⟩ ∧
      (sl.watch = .watching →
        exec (.pingWindowEnd dt) s = .next
          ⟨{ s.node with
              now := max (s.node.now + dt) (sl.began + 24000)
              sounding := { s.node.sounding with
                flight := some { f with slot := some { sl with watch := .over, echo := none } } } }, s.pending⟩)

/-- With 3, 5 or 7 pings, a sounding with fewer valid pings than (P + 1) / 2 is FAILED (R7). Else (R8) the valid echo times are
sorted without losing or gaining one, the median is the element at floor((V − 1) / 2), the spread the largest less the
smallest, and the outcome is UNSTEADY exactly when the spread exceeds 2,000 µs. -/
def Obligations.MedianAndSpreadOfValidPings : Prop :=
  ∀ (c : Settings) (temperature : Int) (results : List (Option Nat)),
    c.pingCount = 3 ∨ c.pingCount = 5 ∨ c.pingCount = 7 →
    let valid := results.filterMap id
    let sorted := validPings results
    sorted.Perm valid ∧ sorted.Pairwise (· ≤ ·) ∧
      (valid.length < (c.pingCount + 1) / 2 → evaluateSounding c temperature results = .failed) ∧
      ((c.pingCount + 1) / 2 ≤ valid.length →
        ∃ m, sorted[(valid.length - 1) / 2]? = some m ∧ medianOf sorted = m ∧
          ∀ lo hi, lo ∈ valid → hi ∈ valid → (∀ x ∈ valid, lo ≤ x ∧ x ≤ hi) →
            spreadOf sorted = hi - lo ∧
            evaluateSounding c temperature results = .used m
              (measuredFill c.e0 c.f0 (distanceOf m (speedOfSound temperature))) (decide (2000 < hi - lo)))

/-- SOUNDING_END (R6, R7, R12 to R14): after the last slot a sounding with fewer valid pings than (P + 1) / 2 is FAILED and
keeps the fill, and any other gives the measured fill of its median; the first sounding has ended. A station in STARTING whose
other start conditions hold leaves it (R45), raising is evaluated with the new fill (R161), a FILL NOTICE follows when the
content calls for one (R150), where the last notice held the content up to now, as the notice law says, which every step
keeps, and its flags byte has bits 6 and 7 at 0, which is the model's choice (log entry 52); and the trigger of a claim is
evaluated (R112). The card table, the store, the tally table, the clock, the held records and the configuration are as they
were. -/
def Obligations.SoundingEndTakesTheResult : Prop :=
  ∀ (s : State) (dt : Nat) (f : Flight) (t : Moment), s.node.StationRuns → s.node.NoticeLaw →
    s.node.sounding.flight = some f → f.firstBurst = some t →
    f.results.length + (if f.slot.isSome then 1 else 0) = s.node.control.settings.pingCount →
    ∃ n : Node, exec (.soundingEnd dt) s = .next ⟨n, s.pending⟩ ∧
      n.now = max (s.node.now + dt) (t + s.node.control.settings.pingCount * 60000) ∧
      (let u := s.node.sounding
       let c := s.node.control.settings
       let sorted := validPings (f.results ++ (f.slot.map (·.echo)).toList)
       let fill := measuredFill c.e0 c.f0 (distanceOf (medianOf sorted) (speedOfSound f.temperature))
       let after := { u with flight := none, periodic := some (n.now + 1800000000) }
       let resting := if u.request.isSome then SoundingPhase.waiting else SoundingPhase.idle
       n.sounding =
        if sorted.length < (c.pingCount + 1) / 2 then
          { after with
            phase := resting
            failures := min 255 (u.failures + 1)
            sensorFault := u.sensorFault || decide (3 ≤ min 255 (u.failures + 1))
            last := some .failed
            median := none }
        else
          let used := { after with
            phase := resting
            fill := some fill
            full := if c.fullThreshold ≤ fill then true else if fill ≤ c.fullThreshold - 50 then false else u.full
            sensorFault := false
            failures := 0
            last := some (if 2000 < spreadOf sorted then .unsteady else .accepted)
            median := some (medianOf sorted) }
          if 2000 < spreadOf sorted ∧ f.repeats = false then used.arm n.now (n.now + 30000000) false true else used) ∧
      n.hatch.firstSounding = true ∧
      Node.StartsWhen (s.node.cards.phase ≠ .scanning ∧ s.node.log.phase = .opened ∧ s.node.pressHome = true) s.node n ∧
      Node.RaisesCallWhen True s.node n ∧ Node.NoticeFollows s.node n ∧ Node.ClaimsWhenTriggered s.node n ∧
      n.cards = s.node.cards ∧ n.store = s.node.store ∧ n.tally = s.node.tally ∧ n.clock = s.node.clock ∧
      n.log.held = s.node.log.held ∧ n.control.settings = s.node.control.settings ∧ n.relay = s.node.relay

/-! ### Card table (02) -/

/-- CARD_UPDATE (R29, R31): in table phase OPEN with no telegram being worked, the oldest CARD UPDATE of the receive buffer
is taken up and its operations wait to be worked in order; one that begins with an operation of unknown kind leaves the
buffer at once and is answered UPDATE FAULT with index 1, card number 0 and MALFORMED. In the other phases none is taken. -/
def Obligations.CardUpdateIsTakenInOrder : Prop :=
  ∀ (s : State) (dt : Nat), s.node.StationRuns →
    ((s.node.cards.phase ≠ .opened ∨ s.node.cards.update.isSome = true) →
      exec (.cardUpdate dt) s = .next ⟨{ s.node with now := s.node.now + dt }, s.pending⟩) ∧
    ∀ (r : Received) (index : Nat) (op : CardOp) (rest : List (Nat × CardOp)),
      s.node.cards.phase = .opened → s.node.cards.update = none →
      s.node.line.buffer.find? (fun r => r.telegram.kind == .cardUpdate) = some r →
      readOps 3 1 r.telegram.payload = (index, op) :: rest →
      (op ≠ .unknown →
        exec (.cardUpdate dt) s = .next
          ⟨{ s.node with
              now := s.node.now + dt
              cards := { s.node.cards with update := some ⟨(index, op) :: rest, true⟩ } }, s.pending⟩) ∧
      (op = .unknown → s.node.line.queue.length < 6 →
        exec (.cardUpdate dt) s = .next
          ⟨{ s.node with
              now := s.node.now + dt
              line := { s.node.line with
                buffer := s.node.line.buffer.eraseP (fun r => r.telegram.kind == .cardUpdate)
                queue := insertEntry
                  ⟨s.node.telegram .updateFault 250 [BitVec.ofNat 8 index, 0, 0, 0, 0, 2], 1, s.node.line.nextAge, 0, false,
                    .cardTable⟩ s.node.line.queue
                nextAge := s.node.line.nextAge + 1 } }, s.pending⟩)

/-- ADD and REMOVE (R27 to R30, R32, R38). They change a row only when the staging queue admits it: with an entry free beyond
those that were given to the deposit log as they freed, which it keeps while it has writes waiting, and with no write of the
log placed in part, between whose rows no card row comes (R89, log entry 7); until
then the operation waits. A well-formed ADD puts its record into the slot that holds the number, or into the lowest free slot
of the bucket; a REMOVE frees the slot that holds it. The record lookup of the number answers the new content at once, and
that of every other number answers as before. The entry count and the check value follow, the row is placed in the staging
queue, no row of the store has changed yet, and the revocation list is as it was. The next operation is worked then, or the
telegram leaves (R29, R31). -/
def Obligations.AddAndRemoveChangeOneCard : Prop :=
  (∀ n : Node, n.cardsAdmitted = true ↔ n.log.pair = .none ∧
    n.store.staging.length + (if n.log.hasWork = true then n.store.forLog else 0) < 4) ∧
  ∀ (s : State) (dt index : Nat) (rest : List (Nat × CardOp)) (buffered : Bool) (number : CardNumber),
    s.node.StationRuns → s.node.CardLaw → s.node.cards.phase = .opened →
    (∀ (cls status rights tariff : Byte) (r : CardRecord) (slot : Nat),
      s.node.cards.update = some ⟨(index, .add number cls status rights tariff) :: rest, buffered⟩ →
      addRecord number cls status rights tariff = some r → s.node.cards.slotFor number = some slot →
      (s.node.cardsAdmitted = false →
        exec (.add dt) s = .next ⟨{ s.node with now := s.node.now + dt }, s.pending⟩) ∧
      (s.node.cardsAdmitted = true → ∃ n : Node, exec (.add dt) s = .next ⟨n, s.pending⟩ ∧
        slot / 4 = number.toNat % 512 ∧ valueAt slot n.cards.slots = some r ∧
        n.cards.lookup number = some r ∧
        (∀ c, c ≠ number → n.cards.lookup c = s.node.cards.lookup c) ∧
        n.cards.entries =
          s.node.cards.entries + (if (s.node.cards.lookup number).isSome then 0 else 1) ∧
        n.cards.checkValue =
          s.node.cards.checkValue - ((s.node.cards.lookup number).map recordCrc).getD 0 + recordCrc r ∧
        n.store = s.node.store.place (s.node.now + dt)
          ⟨.card, slot / 2, cardRow (valueAt (2 * (slot / 2)) n.cards.slots) (valueAt (2 * (slot / 2) + 1) n.cards.slots)⟩ ∧
        n.cards.revoked = s.node.cards.revoked ∧ n.cards.revocations = s.node.cards.revocations ∧
        Node.UpdateGoesOn s.node.line rest buffered s.node n)) ∧
    (∀ (slot : Nat) (r : CardRecord),
      s.node.cards.update = some ⟨(index, .remove number) :: rest, buffered⟩ →
      slotHolding s.node.cards.slots number = some (slot, r) →
      (s.node.cardsAdmitted = false →
        exec (.remove dt) s = .next ⟨{ s.node with now := s.node.now + dt }, s.pending⟩) ∧
      (s.node.cardsAdmitted = true → ∃ n : Node, exec (.remove dt) s = .next ⟨n, s.pending⟩ ∧
        valueAt slot n.cards.slots = none ∧ n.cards.lookup number = none ∧
        (∀ c, c ≠ number → n.cards.lookup c = s.node.cards.lookup c) ∧
        n.cards.entries + 1 = s.node.cards.entries ∧
        n.cards.checkValue = s.node.cards.checkValue - recordCrc r ∧
        n.store = s.node.store.place (s.node.now + dt)
          ⟨.card, slot / 2, cardRow (valueAt (2 * (slot / 2)) n.cards.slots) (valueAt (2 * (slot / 2) + 1) n.cards.slots)⟩ ∧
        n.cards.revoked = s.node.cards.revoked ∧ n.cards.revocations = s.node.cards.revocations ∧
        Node.UpdateGoesOn s.node.line rest buffered s.node n))

/-- REVOKE_ADD and REVOKE_REMOVE (R28, R29, R35): an operation that the staging queue does not admit (R89, log entry 7) waits.
Once it is admitted the number stands on the list afterwards, or no more; the revocation lookup of every other number is as
before; the count follows and one row write is placed. The card records, the entry count and the check value are as they were
(R38). The next operation is worked then, or the telegram leaves. -/
def Obligations.RevokeAddAndRemoveChangeOneNumber : Prop :=
  ∀ (s : State) (dt index : Nat) (rest : List (Nat × CardOp)) (buffered : Bool) (number : CardNumber),
    s.node.StationRuns → s.node.CardLaw → s.node.cards.phase = .opened →
    (∀ position : Nat,
      s.node.cards.update = some ⟨(index, .revokeAdd number) :: rest, buffered⟩ →
      s.node.cards.isRevoked number = false →
      lowestFree s.node.cards.revoked 0 128 = some position →
      (s.node.cardsAdmitted = false →
        exec (.revokeAdd dt) s = .next ⟨{ s.node with now := s.node.now + dt }, s.pending⟩) ∧
      (s.node.cardsAdmitted = true → ∃ n : Node, exec (.revokeAdd dt) s = .next ⟨n, s.pending⟩ ∧
        valueAt position n.cards.revoked = some number ∧ n.cards.isRevoked number = true ∧
        (∀ c, c ≠ number → n.cards.isRevoked c = s.node.cards.isRevoked c) ∧
        n.cards.revocations = s.node.cards.revocations + 1 ∧
        n.store = s.node.store.place (s.node.now + dt) ⟨.revocation, position / 2,
          revocationRow (valueAt (2 * (position / 2)) n.cards.revoked)
            (valueAt (2 * (position / 2) + 1) n.cards.revoked)⟩ ∧
        n.cards.slots = s.node.cards.slots ∧ n.cards.entries = s.node.cards.entries ∧
        n.cards.checkValue = s.node.cards.checkValue ∧ Node.UpdateGoesOn s.node.line rest buffered s.node n)) ∧
    (∀ position : Nat,
      s.node.cards.update = some ⟨(index, .revokeRemove number) :: rest, buffered⟩ →
      (position, number) ∈ s.node.cards.revoked →
      (s.node.cardsAdmitted = false →
        exec (.revokeRemove dt) s = .next ⟨{ s.node with now := s.node.now + dt }, s.pending⟩) ∧
      (s.node.cardsAdmitted = true → ∃ n : Node, exec (.revokeRemove dt) s = .next ⟨n, s.pending⟩ ∧
        valueAt position n.cards.revoked = none ∧ n.cards.isRevoked number = false ∧
        (∀ c, c ≠ number → n.cards.isRevoked c = s.node.cards.isRevoked c) ∧
        n.cards.revocations + 1 = s.node.cards.revocations ∧
        n.store = s.node.store.place (s.node.now + dt) ⟨.revocation, position / 2,
          revocationRow (valueAt (2 * (position / 2)) n.cards.revoked)
            (valueAt (2 * (position / 2) + 1) n.cards.revoked)⟩ ∧
        n.cards.slots = s.node.cards.slots ∧ n.cards.entries = s.node.cards.entries ∧
        n.cards.checkValue = s.node.cards.checkValue ∧ Node.UpdateGoesOn s.node.line rest buffered s.node n))

/-- An operation that faults changes nothing in the table and queues one UPDATE FAULT to RELAY with its index, card number
and reason (R30, R31, R35, R37): ADD with its bucket full or malformed, REVOKE ADD with all 128 positions held. An operation
that changes no row needs no staging entry: REMOVE of an absent card, REVOKE ADD of a held and REVOKE REMOVE of an absent
number (R29, R32, R35). In each case the next operation waits to be worked; after the last one the telegram leaves the receive
buffer (R29), and one of unknown kind in place 2 or 3 ends it there with its own index, card number 0 and MALFORMED (R31).
An ADD is malformed when its class is none of the four, its rights name none of the five fractions, its band is above 3 or its
status is neither VALID nor SUSPENDED; else its record holds the fields as they were given (R25, R31). -/
def Obligations.FaultsAndEmptyOperations : Prop :=
  (∀ (s : State) (dt index : Nat) (op : CardOp) (rest : List (Nat × CardOp)) (buffered : Bool) (number : CardNumber),
     s.node.StationRuns → s.node.cards.phase = .opened → s.node.cards.update = some ⟨(index, op) :: rest, buffered⟩ →
     let worked (c : Instr) (line : Line) : Prop :=
       ∃ n : Node, exec c s = .next ⟨n, s.pending⟩ ∧
         n = { s.node with
           now := s.node.now + dt
           cards := { s.node.cards with update := n.cards.update }
           line := n.line } ∧
         Node.UpdateGoesOn line rest buffered s.node n
     let faulted (reason : Byte) : Line := { s.node.line with
       queue := insertEntry
         ⟨s.node.telegram .updateFault 250
           ([BitVec.ofNat 8 index] ++ bytesOf 4 number.toNat ++ [reason]), 1, s.node.line.nextAge, 0, false, .cardTable⟩
         s.node.line.queue
       nextAge := s.node.line.nextAge + 1 }
     (∀ cls status rights tariff : Byte, op = .add number cls status rights tariff → s.node.line.queue.length < 6 →
       (addRecord number cls status rights tariff = none → worked (.add dt) (faulted 2)) ∧
       ((addRecord number cls status rights tariff).isSome = true → s.node.cards.slotFor number = none →
         worked (.add dt) (faulted 0))) ∧
     (op = .remove number → slotHolding s.node.cards.slots number = none → worked (.remove dt) s.node.line) ∧
     (op = .revokeAdd number → s.node.cards.isRevoked number = true → worked (.revokeAdd dt) s.node.line) ∧
     (op = .revokeAdd number → s.node.cards.isRevoked number = false →
       lowestFree s.node.cards.revoked 0 128 = none → s.node.line.queue.length < 6 →
       worked (.revokeAdd dt) (faulted 1)) ∧
     (op = .revokeRemove number → s.node.cards.isRevoked number = false →
       worked (.revokeRemove dt) s.node.line)) ∧
  ∀ (number : CardNumber) (cls status rights tariff : Byte),
    (addRecord number cls status rights tariff = none ↔
      4 ≤ cls.toNat ∨ 32 ≤ rights.toNat ∨ 64 ≤ tariff.toNat ∨ 2 ≤ status.toNat) ∧
    ∀ r, addRecord number cls status rights tariff = some r →
      r.number = number ∧ r.cls.code = cls.toNat ∧ r.rights.toNat = rights.toNat ∧
        r.allowance.toNat = tariff.toNat % 16 ∧ r.band.toNat = tariff.toNat / 16 ∧
        (r.status = .suspended ↔ status.toNat = 1)

/-- CLEAR and REVOKE_CLEAR (R28, R29, R33, R36): the clear begins at row 0, the operations behind it are held, and the
telegram leaves the receive buffer; the slots, the counts and the check value stay, while every record lookup answers absent
in CLEARING and every revocation lookup NOT MEMBER in REVOKE CLEARING. CLEAR_ROW_WRITE: as soon as the staging queue admits it
(R89, log entry 7) the next row is placed as an empty row, and until then it waits. The program of the last row ends the clear
(R34, R36): the table half is empty with its counts 0, the phase is OPEN, and the other half stays. -/
def Obligations.ClearsRunRowByRow : Prop :=
  ((∀ (s : State) (dt index : Nat) (rest : List (Nat × CardOp)) (buffered : Bool),
     s.node.StationRuns → s.node.cards.phase = .opened →
     let begun (phase : TablePhase) := { s.node with
       now := s.node.now + dt
       cards := { s.node.cards with
         phase := phase
         progress := some 0
         update := if rest = [] then none else some ⟨rest, false⟩ }
       line := { s.node.line with
         buffer := if buffered then s.node.line.buffer.eraseP (fun r => r.telegram.kind == .cardUpdate)
           else s.node.line.buffer } }
     (s.node.cards.update = some ⟨(index, .clear) :: rest, buffered⟩ →
       exec (.clear dt) s = .next ⟨begun .clearing, s.pending⟩) ∧
     (s.node.cards.update = some ⟨(index, .revokeClear) :: rest, buffered⟩ →
       exec (.revokeClear dt) s = .next ⟨begun .revokeClearing, s.pending⟩)) ∧
   ∀ (c : Cards) (number : CardNumber),
     (c.phase = .clearing → c.lookup number = none) ∧ (c.phase = .revokeClearing → c.isRevoked number = false)) ∧
  (∀ (s : State) (dt row : Nat), s.node.StationRuns → s.node.cards.progress = some row →
     (s.node.cardsAdmitted = false →
       exec (.clearRowWrite dt) s = .next ⟨{ s.node with now := s.node.now + dt }, s.pending⟩) ∧
     (s.node.cardsAdmitted = true →
     let placed (region : Region) := { s.node with
       now := s.node.now + dt
       cards := { s.node.cards with progress := some (row + 1) }
       store := s.node.store.place (s.node.now + dt) ⟨region, row, List.replicate 16 0⟩ }
     (s.node.cards.phase = .clearing → row < 1024 →
       exec (.clearRowWrite dt) s = .next ⟨placed .card, s.pending⟩) ∧
     (s.node.cards.phase = .revokeClearing → row < 64 →
       exec (.clearRowWrite dt) s = .next ⟨placed .revocation, s.pending⟩))) ∧
  ∀ (s : State) (dt : Nat) (t : Moment) (row : Nat) (bytes : List Byte) (staging : List RowWrite),
    s.node.StationRuns → s.node.store.programEnds = some t →
    (s.node.cards.phase = .clearing → s.node.cards.progress = some 1024 → row = 1023 →
      s.node.store.staging = ⟨.card, row, bytes⟩ :: staging →
      ∃ n : Node, exec (.rowProgramEnd dt) s = .next ⟨n, s.pending⟩ ∧
        n.cards.phase = .opened ∧ n.cards.slots = [] ∧ n.cards.entries = 0 ∧ n.cards.checkValue = 0 ∧
        n.cards.repaired = false ∧ n.cards.progress = none ∧ n.cards.revoked = s.node.cards.revoked ∧
        n.cards.revocations = s.node.cards.revocations) ∧
    (s.node.cards.phase = .revokeClearing → s.node.cards.progress = some 64 → row = 63 →
      s.node.store.staging = ⟨.revocation, row, bytes⟩ :: staging →
      ∃ n : Node, exec (.rowProgramEnd dt) s = .next ⟨n, s.pending⟩ ∧
        n.cards.phase = .opened ∧ n.cards.revoked = [] ∧ n.cards.revocations = 0 ∧ n.cards.progress = none ∧
        n.cards.slots = s.node.cards.slots ∧ n.cards.entries = s.node.cards.entries ∧
        n.cards.checkValue = s.node.cards.checkValue ∧ n.cards.repaired = s.node.cards.repaired)

/-- CARD_TABLE_SCAN_END (R38, R40, R41), in SAFE too: the phase becomes OPEN, and the table holds exactly what the rows give.
A slot is occupied with the record that its row, passing its check, holds there in range, unless a lower slot of the bucket
holds the same number; a position is held when its passing row holds a number there, unless a lower position holds the same
number. That the bits of a slot and of a marker byte that 12.3 writes 0 are disregarded is the model's choice (log entry 41).
TABLE REPAIRED is set exactly when a row has failed its check, a slot was out of range or a number was held twice. The
counts and the check value are computed from what is held. A card evaluation that waited for the scan goes on at step 2, with
the table as found (R28, R51, read from them by inference, log entry 30): it gets the outcome of the first step whose
condition holds, step 10 as in CARD_READ (log entries 39, 45 and 47), and a crew card its service period and window (R47,
R60). A station in STARTING whose other start conditions hold leaves it, and a call may be raised then (R45, R161). -/
def Obligations.CardScanTakesWhatTheRowsHold : Prop :=
  ∀ (s : State) (dt : Nat), s.node.StationActs → s.node.cards.phase = .scanning →
    ∃ n : Node, exec (.cardTableScanEnd dt) s = .next ⟨n, s.pending⟩ ∧
      n.cards.phase = .opened ∧ n.cards.entries = n.cards.slots.length ∧
      n.cards.revocations = n.cards.revoked.length ∧
      n.cards.checkValue = (n.cards.slots.map (fun p => recordCrc p.2)).sum ∧
      (let st := s.node.store
       let held (p : Nat) (r : CardRecord) : Prop := (st.cardSlots (p / 2))[p % 2]? = some (.occupied r)
       let revoked (p : Nat) (c : CardNumber) : Prop := (st.rowPositions (p / 2))[p % 2]? = some (some c)
       (∀ (p : Nat) (r : CardRecord), p < 2048 →
        ((p, r) ∈ n.cards.slots ↔
          held p r ∧ ∀ q r', q < p → q / 4 = p / 4 → held q r' → r'.number ≠ r.number)) ∧
       (∀ p, p < 2048 → st.readRow .card (p / 2) = none → valueAt p n.cards.slots = none) ∧
       (∀ (p : Nat) (c : CardNumber), p < 128 →
        ((p, c) ∈ n.cards.revoked ↔ revoked p c ∧ ∀ q, q < p → ¬ revoked q c)) ∧
       (∀ p, p < 128 → st.readRow .revocation (p / 2) = none → valueAt p n.cards.revoked = none) ∧
       (n.cards.repaired = true ↔
        (∃ row, row < 1024 ∧ st.readRow .card row = none) ∨ (∃ row, row < 64 ∧ st.readRow .revocation row = none) ∨
        (∃ p, p < 2048 ∧ (st.cardSlots (p / 2))[p % 2]? = some .outOfRange) ∨
        (∃ p q r r', p < q ∧ q < 2048 ∧ p / 4 = q / 4 ∧ held p r ∧ held q r' ∧ r.number = r'.number) ∨
        ∃ p q c, p < q ∧ q < 128 ∧ revoked p c ∧ revoked q c)) ∧
      n.hatch.evaluating = none ∧ n.store = s.node.store ∧ n.tally = s.node.tally ∧ n.clock = s.node.clock ∧
      n.sounding.fill = s.node.sounding.fill ∧ n.log.held = s.node.log.held ∧
      n.log.accounting = s.node.log.accounting ∧ n.log.appendList = s.node.log.appendList ∧
      (let crew (card : CardNumber) : Prop := n.cards.isRevoked card = false ∧
         ∃ r, n.cards.lookup card = some r ∧ r.status = .valid ∧ r.cls = .crew
       (∀ card, s.node.hatch.evaluating = some card →
         Node.JudgedFromStep2 s.node n n.cards (s.node.now + dt) card ∧
         (crew card → n.hatch.service = some ⟨s.node.now + dt + 900000000, card⟩ ∧
           Node.CrewWindowGiven s.node n (s.node.now + dt) card ∧
           (s.node.hatch.station ≠ .starting →
             n.hatch.station = if s.node.hatch.station = .ready then .service else s.node.hatch.station))) ∧
       ((∀ card, s.node.hatch.evaluating = some card → ¬ crew card) →
        Node.StartsWhen (s.node.control.phase = .running ∧ s.node.log.phase = .opened ∧ s.node.pressHome = true ∧
          s.node.hatch.firstSounding = true) s.node n ∧
        Node.RaisesCallWhen (s.node.hatch.station = .starting) s.node n))

/-! ### Card presentation, hatch and deposits (03) -/

/-- CARD_READ (R50 to R55, R57, R59): a read that repeats the last one within 2 s is ignored, one that arrives while another
is evaluated is discarded, and while the card table is scanned the evaluation waits (R28, log entry 30). Else the first of the
steps 1 to 12 whose condition holds gives the outcome; crew cards and the card whose own acceptance is pending have statements
of their own. A refusal shows its code for 4 s. Step 10 asks the tally table as its rebuild leaves it (log entries 45 and 47),
and NO ROOM passes it for every allowance (log entry 39). In SAFE a card is evaluated too (R68). The card table, the store,
the tally table, the clock, the fill and the held records are as they were. -/
def Obligations.CardEvaluationTakesTheFirstStep : Prop :=
  ∀ (s : State) (dt : Nat) (card : CardNumber), s.node.StationActs →
    let now' := s.node.now + dt
    let h := s.node.hatch
    (h.evaluating.isSome = true →
      exec (.cardRead dt card) s = .next ⟨{ s.node with now := now' }, s.pending⟩) ∧
    (h.evaluating = none → (∃ t, h.lastRead = some ⟨card, t⟩ ∧ now' - t < 2000000) →
      exec (.cardRead dt card) s = .next
        ⟨{ s.node with now := now', hatch := { h with lastRead := some ⟨card, now'⟩ } }, s.pending⟩) ∧
    (h.evaluating = none → (∀ t, h.lastRead = some ⟨card, t⟩ → 2000000 ≤ now' - t) →
      ∃ n : Node, exec (.cardRead dt card) s = .next ⟨n, s.pending⟩ ∧
        n.hatch.lastRead = some ⟨card, now'⟩ ∧
        n.cards = s.node.cards ∧ n.store = s.node.store ∧ n.tally = s.node.tally ∧ n.clock = s.node.clock ∧
        n.sounding.fill = s.node.sounding.fill ∧ n.log.held = s.node.log.held ∧
        n.log.accounting = s.node.log.accounting ∧
        (let refused (code : Nat) : Prop := n.hatch.panel = some ⟨.refusal code, some (now' + 4000000)⟩
         if h.station = .starting then refused 91
         else if s.node.cards.phase = .scanning then n.hatch.evaluating = some card
         else Node.JudgedFromStep2 s.node n s.node.cards now' card))

/-- CARD_READ of a card whose own acceptance is pending (R56): a refusal at steps 2 to 7 ends the window or the deferred
release with the refusal shown; with no refusal the window restarts with a fresh pull-in, and a deferred release goes on
with its remaining time and its indication shown anew. In SAFE a refusal ends it too (R68). -/
def Obligations.OwnPendingCardIsPresentedAgain : Prop :=
  ∀ (s : State) (dt : Nat) (card : CardNumber), s.node.StationActs → s.node.hatch.evaluating = none →
    (∀ t, s.node.hatch.lastRead = some ⟨card, t⟩ → 2000000 ≤ s.node.now + dt - t) →
    s.node.hatch.station ≠ .starting → s.node.cards.phase ≠ .scanning → s.node.hatch.ownPending card = true →
    ∃ n : Node, exec (.cardRead dt card) s = .next ⟨n, s.pending⟩ ∧
      (let now' := s.node.now + dt
       let ended (code : Nat) : Prop :=
         n.hatch.phase = .idle ∧ n.hatch.window = none ∧ n.hatch.deferred = none ∧ n.hatch.acceptance = none ∧
           n.hatch.lock = .off ∧ n.hatch.panel = some ⟨.refusal code, some (now' + 4000000)⟩
       if s.node.cards.isRevoked card = true then ended 11
       else
        match s.node.cards.lookup card with
        | none => ended 12
        | some r =>
          if r.status = .suspended then ended 13
          else if r.cls = .crew then True
          else if s.node.hatch.station = .safe ∨ s.node.hatch.station = .outOfService then ended 90
          else if r.rights.getLsbD s.node.control.settings.fraction.code = false then ended 14
          else
            n.hatch.acceptance = s.node.hatch.acceptance ∧ n.hatch.phase = s.node.hatch.phase ∧
            if s.node.hatch.phase = .window then
              n.hatch.window = some (now' + 10000000) ∧ n.hatch.lock = .pullIn (now' + 300000)
            else
              n.hatch.deferred = s.node.hatch.deferred ∧ n.hatch.lock = s.node.hatch.lock ∧
                n.hatch.panel = some ⟨.deferred, none⟩)

/-- CARD_READ of a crew card (R46, R47, R60): the service period of 15 min begins or is re-armed under this card in every
station state, SAFE included (R68), and a station in READY goes to SERVICE. With the press away no window opens (code 32), and
what is held goes on; with the hatch not free or a release held for another card none either (code 30); else the card gets, or
keeps, a window of 10 s. A card whose class has changed keeps the acceptance of its window, which is the model's choice (log
entry 25). In OUT OF SERVICE with the press in FAULT the recovery toward home starts; that it stands in REVERSE after the step
also with the home switch already ACTIVE is the model's choice (log entry 31). -/
def Obligations.CrewCardBeginsService : Prop :=
  ∀ (s : State) (dt : Nat) (card : CardNumber) (r : CardRecord), s.node.StationActs → s.node.hatch.evaluating = none →
    (∀ t, s.node.hatch.lastRead = some ⟨card, t⟩ → 2000000 ≤ s.node.now + dt - t) →
    s.node.hatch.station ≠ .starting → s.node.cards.phase ≠ .scanning →
    s.node.cards.isRevoked card = false → s.node.cards.lookup card = some r → r.status = .valid → r.cls = .crew →
    ∃ n : Node, exec (.cardRead dt card) s = .next ⟨n, s.pending⟩ ∧
      (let now' := s.node.now + dt
       let h := s.node.hatch
       n.hatch.service = some ⟨now' + 900000000, card⟩ ∧
       n.hatch.station = (if h.station = .ready then .service else h.station) ∧
       Node.CrewWindowGiven s.node n now' card ∧
       (h.station = .outOfService → s.node.press.state = .fault →
          n.press.state = .reversing ∧ n.press.kind = .recovery) ∧
       n.cards = s.node.cards ∧ n.store = s.node.store ∧ n.tally = s.node.tally ∧ n.clock = s.node.clock ∧
       n.sounding.fill = s.node.sounding.fill ∧ n.log.held = s.node.log.held ∧
       n.log.accounting = s.node.log.accounting ∧ n.log.appendList = s.node.log.appendList)

/-- The timers of the hatch controller and READ_ERROR (R47, R50, R57 to R59, R65, R66). WINDOW_EXPIRY and
DEFERRED_RELEASE_EXPIRY discard the acceptance with nothing counted, the first with the standing indication ended, the second
with code 31; LOCK_PULL_IN_END enters HOLD; SERVICE_PERIOD_EXPIRY returns a station in SERVICE to READY, where a call may be
raised (R161), and a FILL NOTICE follows (R150), with bits 6 and 7 of its flags byte at 0, which is the model's choice (log
entry 52). After WINDOW_EXPIRY and SERVICE_PERIOD_EXPIRY the trigger of a claim is evaluated (R112): a claim offered, like the
other telegrams, changes the line unit and what the owner of a displaced telegram keeps of it, and without one WINDOW_EXPIRY
changes nothing else. INDICATION_EXPIRY shows the standing indication of the release held, or darkens the panel;
BUZZER_TONE_END ends a tone and goes on to the next one of 150 ms, or to silence. The interval before the next tone is a free
value, and a standing indication that is shown again sounds its own tones again: both are the model's choices (log entry 17). -/
def Obligations.HatchTimersRunOut : Prop :=
  ∀ (s : State) (dt : Nat), s.node.StationActs →
    let h := s.node.hatch
    (∀ t, h.window = some t →
      let ended : Hatch := { h with phase := .idle, window := none, deferred := none, acceptance := none, lock := .off }
      let left : Node := { s.node with
        now := max (s.node.now + dt) t
        hatch := match h.panel with
          | some ⟨_, none⟩ => { ended with panel := none, buzzer := .silent }
          | _ => ended }
      (¬ Node.ClaimDue s.node left → exec (.windowExpiry dt) s = .next ⟨left, s.pending⟩) ∧
      ∃ n : Node, exec (.windowExpiry dt) s = .next ⟨n, s.pending⟩ ∧
        (s.node.control.phase ≠ .safe → Node.ClaimsWhenTriggered s.node n) ∧
        n = { left with
          press := n.press, line := n.line, relay := n.relay
          log := { s.node.log with harvest := n.log.harvest }
          control := { s.node.control with answer := n.control.answer } } ∧
        n.line.buffer = s.node.line.buffer) ∧
    (∀ t, h.deferred = some t →
      exec (.deferredReleaseExpiry dt) s = .next
        ⟨{ s.node with
            now := max (s.node.now + dt) t
            hatch := { h with
              phase := .idle
              window := none
              deferred := none
              acceptance := none
              lock := .off
              panel := some ⟨.refusal 31, some (max (s.node.now + dt) t + 4000000)⟩
              buzzer := .tone 1 (max (s.node.now + dt) t) (max (s.node.now + dt) t + 150000) } }, s.pending⟩) ∧
    (∀ t, h.lock = .pullIn t →
      exec (.lockPullInEnd dt) s = .next
        ⟨{ s.node with now := max (s.node.now + dt) t, hatch := { h with lock := .hold } }, s.pending⟩) ∧
    (∀ p, h.service = some p →
      ∃ n : Node, exec (.servicePeriodExpiry dt) s = .next ⟨n, s.pending⟩ ∧ n.now = max (s.node.now + dt) p.ends ∧
        n.hatch = { h with service := none, station := if h.station = .service then .ready else h.station } ∧
        Node.RaisesCallWhen (h.station = .service) s.node n ∧
        (s.node.control.phase ≠ .safe → Node.ClaimsWhenTriggered s.node n) ∧
        (s.node.NoticeLaw → Node.NoticeFollows s.node n) ∧
        n = { s.node with
          now := n.now, hatch := n.hatch, call := n.call, neighbour := n.neighbour, press := n.press, line := n.line
          relay := n.relay
          log := { s.node.log with harvest := n.log.harvest }
          control := { s.node.control with answer := n.control.answer } } ∧
        n.line.buffer = s.node.line.buffer) ∧
    (∀ i t, h.panel = some ⟨i, some t⟩ →
      exec (.indicationExpiry dt) s = .next
        ⟨{ s.node with
            now := max (s.node.now + dt) t
            hatch := match h.standing with
              | some j => { h with panel := some ⟨j, none⟩, buzzer := j.buzzer (max (s.node.now + dt) t) }
              | none => { h with panel := none, buzzer := .silent } }, s.pending⟩) ∧
    (∀ k begins ends, h.buzzer = .tone k begins ends →
      let now' := max (s.node.now + dt) ends
      exec (.buzzerToneEnd dt) s = .next
        ⟨{ s.node with
            now := now'
            hatch := { h with buzzer := match k with
              | 0 => .silent
              | j + 1 => .tone j (now' + Config.toneGap) (now' + Config.toneGap + 150000) } }, s.pending⟩) ∧
    (h.evaluating = none →
      exec (.readError dt) s = .next
        ⟨{ s.node with
            now := s.node.now + dt
            hatch := { h with
              panel := some ⟨.presentAgain, some (s.node.now + dt + 4000000)⟩
              buzzer := .tone 0 (s.node.now + dt) (s.node.now + dt + 150000) } }, s.pending⟩)

/-- HATCH_OPEN and HATCH_STUCK (R22, R57, R61, R64): an opening in WINDOW begins a deposit or a crew opening with the
acceptance kept; one in IDLE or DEFERRED is a forced opening, which shows FORCED and passes a FORCED record with the fill
value to the log. The open timer runs, the lock is off, a sounding in flight is abandoned with its markers returned to the
request, due 3 s later or when the request held is due (R19), and the fill is as it was. HATCH STUCK is set at 90 s, with a
FILL NOTICE when the content calls for one (R150), in whose flags byte bits 6 and 7 are 0, which is the model's choice (log
entry 52). All this holds in SAFE too (R68, R109). -/
def Obligations.HatchOpeningActsByPhase : Prop :=
  ∀ (s : State) (dt : Nat), s.node.StationActs →
    let now' := s.node.now + dt
    let h := s.node.hatch
    (h.hatch = .closed → s.node.ReleaseLaw →
      ∃ n : Node, exec (.hatchOpen dt) s = .next ⟨n, s.pending⟩ ∧
        n.hatch.hatch = .opened ∧ n.hatch.openSince = some now' ∧ n.hatch.lock = .off ∧
        (h.phase = .window →
          n.hatch.phase = (if h.acceptance.map (·.cls) = some .crew then .crewOpening else .deposit) ∧
          n.hatch.window = none ∧ n.hatch.acceptance = h.acceptance ∧ n.log.appendList = s.node.log.appendList) ∧
        ((h.phase = .idle ∨ h.phase = .deferred) →
          n.hatch.phase = .forcedOpening ∧ n.hatch.panel = some ⟨.forced, some (now' + 4000000)⟩ ∧
          (h.phase = .deferred → n.hatch.acceptance = none ∧ n.hatch.deferred = none) ∧
          (s.node.log.phase = .opened → s.node.log.eventsHeld < 3 →
            n.log.appendList = s.node.log.appendList ++
              [⟨.forced, s.node.clock.day, s.node.clock.seconds.map (· / 2), s.node.control.settings.fraction,
                s.node.sounding.fill⟩])) ∧
        n.sounding = s.node.sounding.abandonedAt now' ∧
        n.cards = s.node.cards ∧ n.store = s.node.store ∧ n.tally = s.node.tally ∧ n.log.held = s.node.log.held ∧
        n.log.accounting = s.node.log.accounting) ∧
    (∀ t, h.openSince = some t → h.stuck = false →
      ∃ n : Node, exec (.hatchStuck dt) s = .next ⟨n, s.pending⟩ ∧ n.now = max now' (t + 90000000) ∧
        n.hatch = { h with stuck := true } ∧ Node.NoticeFollows s.node n ∧ n.cards = s.node.cards ∧ n.store = s.node.store ∧
        n.sounding = s.node.sounding ∧ n.press = s.node.press ∧ n.tally = s.node.tally)

/-- HATCH_CLOSED in DEPOSIT (R16, R62, R63, R71, R73, R83, R84, R92, R157): the deposit completes once, at every unit. The
tally table, once rebuilt (R76, log entries 45 and 47), counts the card, or marks the deposit UNCHECKED; the charge is that of
the band, halved for an expected card, whose expectation is consumed; the totals rise by it; the DEPOSIT record waits with the
raised fill and its three markers; a TALLY NOTICE is queued; a known fill rises by the bag increment and FULL follows it; a
sounding is armed 3 s later, or stays armed for the later due time of the request held (R19); the press counts one deposit
more, and the trigger of a claim is evaluated with it (R112). -/
def Obligations.DepositCompletesAtEveryUnit : Prop :=
  ∀ (s : State) (dt : Nat) (reading : Option Int) (a : Acceptance), s.node.StationRuns →
    s.node.hatch.hatch = .opened → s.node.hatch.phase = .deposit → s.node.hatch.acceptance = some a →
    s.node.sounding.phase ≠ .stopped →
    let c := s.node.control.settings
    let counted := s.node.tallyInUse.countDeposit a.card
    let expected := s.node.neighbour.expected.any (fun e => e.card == a.card)
    let full := (c.baseRate * (4 * (a.band.getD 0).toNat) + 4) / 8
    let charge := min 255 (if expected then full / 2 else full)
    let fill := s.node.sounding.fill.map (fun f => min 1000 (f + c.bagIncrement))
    ∃ n : Node, exec (.hatchClosed dt reading) s = .next ⟨n, s.pending⟩ ∧
      n.hatch.hatch = .closed ∧ n.hatch.phase = .idle ∧ n.hatch.acceptance = none ∧ n.hatch.stuck = false ∧
      n.hatch.openSince = none ∧
      n.tally = counted.getD s.node.tallyInUse ∧
      n.log.accounting = { s.node.log.accounting with
        total := min 16777215 (s.node.log.accounting.total + charge)
        count := min 65535 (s.node.log.accounting.count + 1)
        hatchCycles := min 16777215 (s.node.log.accounting.hatchCycles + 1) } ∧
      n.log.appendList = s.node.log.appendList ++
        [⟨.deposit a.card charge (a.unchecked || counted.isNone) expected s.node.hatch.service.isSome,
          s.node.clock.day, s.node.clock.seconds.map (· / 2), c.fraction, fill⟩] ∧
      n.neighbour.expected = s.node.neighbour.expected.filter (fun e => e.card != a.card) ∧
      n.sounding = ({ s.node.sounding with
        fill := fill
        full := match fill with
          | none => s.node.sounding.full
          | some f => if c.fullThreshold ≤ f then true else if f ≤ c.fullThreshold - 50 then false
            else s.node.sounding.full } : Sounding).armedFor (s.node.now + dt + 3000000) false false ∧
      Node.ClaimsWhenTriggered s.node n ∧
      n.press.deposits = (if c.pressFitted then min 255 (s.node.press.deposits + 1) else s.node.press.deposits) ∧
      (s.node.line.queue.length ≤ 2 → ∃ e ∈ n.line.queue,
        e.telegram = s.node.telegram .tallyNotice 0
          (bytesOf 4 a.card.toNat ++ [BitVec.ofNat 8 c.fraction.code] ++ bytesOf 2 s.node.clock.day)) ∧
      n.cards = s.node.cards ∧ n.store = s.node.store ∧ n.clock = s.node.clock ∧ n.log.held = s.node.log.held

/-- HATCH_CLOSED in the other phases, HATCH_SETTLED and LIFT_SETTLED (R48, R49, R62): a closing clears HATCH STUCK, stops the
open timer and ends a crew opening or a forced opening with nothing counted. Settling is no opening, closing, lift or seat: it
counts nothing and records nothing; a hatch that settles OPEN starts its timer in FORCED OPENING. In SAFE it is the same
(R68). -/
def Obligations.ClosingAndSettlingCountNothing : Prop :=
  ∀ (s : State) (dt : Nat) (reading : Option Int), s.node.StationActs →
    let h := s.node.hatch
    let uncounted (n : Node) : Prop := n.tally = s.node.tally ∧ n.log.appendList = s.node.log.appendList ∧
      n.log.accounting = s.node.log.accounting ∧ n.log.held = s.node.log.held ∧ n.cards = s.node.cards ∧
      n.store = s.node.store ∧ n.press.deposits = s.node.press.deposits ∧
      n.sounding.fill = s.node.sounding.fill ∧ n.sounding.full = s.node.sounding.full
    (h.hatch = .opened → (h.phase = .crewOpening ∨ h.phase = .forcedOpening) →
      ∃ n : Node, exec (.hatchClosed dt reading) s = .next ⟨n, s.pending⟩ ∧ uncounted n ∧
        n.hatch.hatch = .closed ∧ n.hatch.openSince = none ∧ n.hatch.stuck = false ∧ n.hatch.phase = .idle ∧
        (h.phase = .crewOpening → n.hatch.acceptance = none)) ∧
    (h.hatch = .unsettled → ∀ isOpen : Bool,
      ∃ n : Node, exec (.hatchSettled dt isOpen reading) s = .next ⟨n, s.pending⟩ ∧ uncounted n ∧
        n.hatch = if isOpen then
            { h with hatch := .opened, openSince := some (s.node.now + dt), phase := .forcedOpening }
          else { h with hatch := .closed }) ∧
    (h.lift = .unsettled → ∀ isLifted : Bool,
      ∃ n : Node, exec (.liftSettled dt isLifted reading) s = .next ⟨n, s.pending⟩ ∧ uncounted n ∧
        n.hatch = { h with lift := if isLifted then .lifted else .seated } ∧ n.call = s.node.call)

/-- LIFT and SEAT (R17, R49, R62, R63, R170, R171). A lift in WINDOW or DEFERRED ends the release; one in DEPOSIT completes
the deposit at every unit as a closing does, the rebuild of the tally table coming first (log entries 45 and 47), and the
opening goes on as a forced one. Then the fill is unknown and FULL cleared, an EMPTYING record with the crew card of the
running service period, or an UNANNOUNCED EMPTY record, goes to the log behind the DEPOSIT, and an open call is closed with a
CALL CLOSED to RELAY; with none open nothing is. A sounding in flight is abandoned, its markers returning in a request due 3 s
later (R22), and a deposit completed by the lift has armed one 3 s later too (R16). A seat arms one 20 s later; each time a
request held keeps its own due time when that is the later (R19). In SAFE the hatch and the log act the same, while the
sounding unit, STOPPED, keeps its state (R24, R68, R109). -/
def Obligations.LiftEmptiesAndSeatRearms : Prop :=
  ∀ (s : State) (dt : Nat) (reading : Option Int), s.node.StationActs →
    let now' := s.node.now + dt
    let h := s.node.hatch
    let c := s.node.control.settings
    let sounds := s.node.sounding.phase ≠ .stopped
    let emptied : Sounding := { s.node.sounding with fill := none, full := false }
    let cause : Nat := if h.service.isSome then 0 else 1
    let emptying : LogEntry :=
      ⟨match h.service with | some p => .emptying p.crew | none => .unannouncedEmpty, s.node.clock.day,
        s.node.clock.seconds.map (· / 2), c.fraction, none⟩
    (h.lift = .seated →
      ∃ n : Node, exec (.lift dt) s = .next ⟨n, s.pending⟩ ∧
        n.hatch.lift = .lifted ∧
        n.hatch.phase = (match h.phase with
          | .window | .deferred | .idle => .idle
          | .deposit | .crewOpening | .forcedOpening => .forcedOpening) ∧
        (h.phase = .window → n.hatch.acceptance = none ∧ n.hatch.window = none ∧ n.hatch.lock = .off) ∧
        (h.phase = .deferred → n.hatch.acceptance = none ∧
          n.hatch.panel = some ⟨.refusal 31, some (now' + 4000000)⟩) ∧
        (h.phase ≠ .deposit → n.tally = s.node.tally ∧ n.log.accounting = s.node.log.accounting ∧
          n.press.deposits = s.node.press.deposits ∧ n.neighbour.expected = s.node.neighbour.expected ∧
          (s.node.log.phase = .opened → s.node.log.eventsHeld < 3 →
            n.log.appendList = s.node.log.appendList ++ [emptying])) ∧
        (∀ a, h.phase = .deposit → h.acceptance = some a →
          let counted := s.node.tallyInUse.countDeposit a.card
          let expected := s.node.neighbour.expected.any (fun e => e.card == a.card)
          let full := (c.baseRate * (4 * (a.band.getD 0).toNat) + 4) / 8
          let charge := min 255 (if expected then full / 2 else full)
          n.hatch.acceptance = none ∧ n.tally = counted.getD s.node.tallyInUse ∧
          n.log.accounting = { s.node.log.accounting with
            total := min 16777215 (s.node.log.accounting.total + charge)
            count := min 65535 (s.node.log.accounting.count + 1)
            hatchCycles := min 16777215 (s.node.log.accounting.hatchCycles + 1) } ∧
          (s.node.log.phase = .opened → s.node.log.eventsHeld < 3 →
            n.log.appendList = s.node.log.appendList ++
              [⟨.deposit a.card charge (a.unchecked || counted.isNone) expected h.service.isSome, s.node.clock.day,
                s.node.clock.seconds.map (· / 2), c.fraction,
                s.node.sounding.fill.map (fun f => min 1000 (f + c.bagIncrement))⟩, emptying]) ∧
          n.neighbour.expected = s.node.neighbour.expected.filter (fun e => e.card != a.card) ∧
          n.press.deposits =
            (if c.pressFitted then min 255 (s.node.press.deposits + 1) else s.node.press.deposits) ∧
          (s.node.control.phase = .running → s.node.line.queue.length ≤ 2 → ∃ e ∈ n.line.queue,
            e.telegram = s.node.telegram .tallyNotice 0
              (bytesOf 4 a.card.toNat ++ [BitVec.ofNat 8 c.fraction.code] ++ bytesOf 2 s.node.clock.day))) ∧
        (sounds → h.phase ≠ .deposit → n.sounding = emptied.abandonedAt now') ∧
        (sounds → h.phase = .deposit → h.acceptance.isSome = true →
          n.sounding = (emptied.armedFor (now' + 3000000) false false).abandonedAt now') ∧
        (¬ sounds → n.sounding = s.node.sounding) ∧
        n.call = (if s.node.call.state = .none then s.node.call else { s.node.call with
          state := .none, tag := none, sends := none, resend := none, rest := none, round := none, lead := none }) ∧
        (s.node.call.state ≠ .none → s.node.control.phase = .running → s.node.line.queue.length ≤ 2 →
          ∃ e ∈ n.line.queue, e.cls = 1 ∧ e.telegram =
            s.node.telegram .callClosed 250 [BitVec.ofNat 8 (s.node.call.tag.getD 0), BitVec.ofNat 8 cause]) ∧
        (s.node.call.state = .none →
          ∀ e ∈ n.line.queue, e.telegram.kind = .callClosed → e ∈ s.node.line.queue) ∧
        n.log.held = s.node.log.held ∧ n.cards = s.node.cards ∧ n.store = s.node.store ∧ n.clock = s.node.clock) ∧
    (h.lift = .lifted →
      ∃ n : Node, exec (.seat dt reading) s = .next ⟨n, s.pending⟩ ∧
        n.hatch = { h with lift := .seated } ∧
        (sounds → n.sounding = s.node.sounding.armedFor (now' + 20000000) false false) ∧
        (¬ sounds → n.sounding = s.node.sounding) ∧ n.log.appendList = s.node.log.appendList ∧
        n.cards = s.node.cards ∧ n.store = s.node.store ∧ n.tally = s.node.tally)

/-- The law of R51 and R59: whatever the command, a release window that opens or restarts is for a card that is not on the
revocation list. -/
def Obligations.NoRevokedCardGetsAWindow : Prop :=
  ∀ (c : Instr) (s : State) (n : Node), exec c s = .next ⟨n, s.pending⟩ →
    n.hatch.window.isSome = true → n.hatch.window ≠ s.node.hatch.window →
    ∃ a, n.hatch.acceptance = some a ∧ n.cards.isRevoked a.card = false

/-! ### Tallies, charges and the station clock (04) -/

/-- The charge (R83): the band's factor 0, 4, 8 or 12 times the base, by 8, rounded half up; halved, rounded down, for an
expected card; then clamped to 255. Band 0 is free, the largest unhalved charge is 383 and the largest halved one 191. -/
def Obligations.ChargeFollowsBandAndBase : Prop :=
  ∀ (base : Nat) (band : BitVec 2), base ≤ 255 →
    let f := if band = 0 then 0 else if band = 1 then 4 else if band = 2 then 8 else 12
    let unhalved := (base * f + 4) / 8
    2 * base * f ≤ 16 * unhalved + 8 ∧ 16 * unhalved ≤ 2 * base * f + 8 ∧ unhalved ≤ 383 ∧ unhalved / 2 ≤ 191 ∧
      chargeOf base band.toNat false = min 255 unhalved ∧ chargeOf base band.toNat true = unhalved / 2 ∧
      chargeOf base 0 false = 0

/-- A deposit counted and a notice counted (R70 to R72, R74), in a table without double entries: the card's own count rises by
one, saturating at 15 and 63, and it takes the next value of the touch counter as its stamp, which at the counter's maximum is
a free value (log entry 36); every other entry stays, but for the one of smallest stamp among those with local count 0 when
the table is full. There is no room exactly when the card has no entry, 384 are held and none has local count 0: then the
answer to step 10 is NO ROOM. TALLY_NOTICE (R74, R76): the oldest notice leaves the receive buffer; one of the own fraction
and day raises the heard count, or the tally loss counter when there is no room; one of another fraction or day changes
nothing else. Until the rebuild has ended none is taken. -/
def Obligations.TallyRaisesOneCard : Prop :=
  (∀ (n : Node) (card : CardNumber), n.TallyLaw →
     let t := n.tally
     let old := tallyEntry card t.entries
     let full := old = none ∧ t.entries.length = 384
     let noRoom := full ∧ ∀ e ∈ t.entries, e.loc ≠ 0
     (t.countDeposit card = none ↔ noRoom) ∧ (t.countHeard card = none ↔ noRoom) ∧
     (t.knownCount card = none ↔ noRoom) ∧
     (∀ k, t.knownCount card = some k → k = (old.map (fun e => e.loc + e.heard)).getD 0 ∧ k ≤ 78) ∧
     ∀ (heard : Bool) (t' : Tally), (if heard then t.countHeard card else t.countDeposit card) = some t' →
       (t.touches < 4294967295 → t'.touches = t.touches + 1) ∧ t'.touches ≤ 4294967295 ∧ t'.loss = t.loss ∧
       tallyEntry card t'.entries = some (if heard then
           ⟨card, (old.map (·.loc)).getD 0, min 63 ((old.map (·.heard)).getD 0 + 1), t'.touches⟩
         else ⟨card, min 15 ((old.map (·.loc)).getD 0 + 1), (old.map (·.heard)).getD 0, t'.touches⟩) ∧
       ∀ e, e.card ≠ card → (e ∈ t'.entries ↔ e ∈ t.entries ∧
         ¬ (full ∧ e.loc = 0 ∧ ∀ x ∈ t.entries, x.loc = 0 → e.stamp ≤ x.stamp))) ∧
  ∀ (s : State) (dt : Nat), s.node.StationRuns →
    (s.node.tally.rebuilt = false →
      exec (.tallyNotice dt) s = .next ⟨{ s.node with now := s.node.now + dt }, s.pending⟩) ∧
    ∀ r : Received, s.node.tally.rebuilt = true →
      s.node.line.buffer.find? (fun r => r.telegram.kind == .tallyNotice) = some r →
      exec (.tallyNotice dt) s = .next
        ⟨{ s.node with
            now := s.node.now + dt
            line := { s.node.line with
              buffer := s.node.line.buffer.eraseP (fun r => r.telegram.kind == .tallyNotice) }
            tally :=
              if field r.telegram.payload 4 1 = s.node.control.settings.fraction.code ∧
                  field r.telegram.payload 5 2 = s.node.clock.day then
                (s.node.tally.countHeard (BitVec.ofNat 32 (field r.telegram.payload 0 4))).getD
                  { s.node.tally with loss := min 65535 (s.node.tally.loss + 1) }
              else s.node.tally }, s.pending⟩

/-- CLOCK_SECOND (R78, R80): in SET the seconds advance by one and wrap at 86,400 with the day kept; reaching the rollover
instant with a day that is in force since START or for more than 12 h rolls the day over. The closing day's totals go to the
log as a DAY CLOSE with the time before, read from R80 by inference (log entry 23); the new day begins with an emptied tally
table and totals of 0; the window, the fill, the views and the expected cards are untouched. A completed DEPOSIT that waits
and will find the log full is in the overflow count of the closing day (R81), as an overflow deposit from then on, which is
the model's choice (log entry 48); with the event list full the DAY CLOSE is lost and counted, and accounting is due (R94,
R97). In UNSET nothing runs. In SAFE the clock works as in any other state (R85). -/
def Obligations.ClockRunsAndRollsOver : Prop :=
  ∀ (s : State) (dt : Nat), s.node.StationActs →
    (s.node.clock.seconds = none →
      exec (.clockSecond dt) s = .next ⟨{ s.node with now := s.node.now + dt }, s.pending⟩) ∧
    ∀ t : Nat, s.node.clock.seconds = some t →
      let next := if t + 1 = 86400 then 0 else t + 1
      let rolls := next = s.node.control.settings.rolloverHour * 3600 ∧
        ∀ e, s.node.clock.enteredAt = some e → 43200000000 < s.node.now + dt - e
      ∃ n : Node, exec (.clockSecond dt) s = .next ⟨n, s.pending⟩ ∧ n.now = s.node.now + dt ∧
        n.hatch = s.node.hatch ∧ n.sounding = s.node.sounding ∧ n.neighbour.views = s.node.neighbour.views ∧
        n.neighbour.expected = s.node.neighbour.expected ∧ n.cards = s.node.cards ∧ n.store = s.node.store ∧
        n.log.held = s.node.log.held ∧
        (¬ rolls → n.clock = { s.node.clock with seconds := some next } ∧ n.tally = s.node.tally ∧
          n.log.accounting = s.node.log.accounting ∧ n.log.appendList = s.node.log.appendList) ∧
        (rolls →
          n.clock = ⟨min 65535 (s.node.clock.day + 1), some next, some (s.node.now + dt)⟩ ∧
          n.tally = { s.node.tally with entries := [], touches := 0 } ∧
          n.log.accounting = { s.node.log.accounting with
            day := min 65535 (s.node.clock.day + 1), total := 0, count := 0, overflowCount := 0, overflowCharge := 0,
            rebuilt := false } ∧
          (s.node.log.phase = .opened → ∃ items overflow, s.node.log.ClosesWith items overflow ∧
            (s.node.log.eventsHeld < 3 →
              n.log.appendList = items ++
                [⟨.dayClose s.node.log.accounting.total s.node.log.accounting.count overflow,
                  s.node.clock.day, some (t / 2), s.node.control.settings.fraction, s.node.sounding.fill⟩]) ∧
            (3 ≤ s.node.log.eventsHeld → n.log.appendList = items ∧
              n.log.lost = min 65535 (s.node.log.lost + 1) ∧ n.log.due = true)))

/-- TIME (R79, R80) once the log's scan has ended: seconds of 86,400 or more and an earlier day are ignored; the own day sets
the seconds, in SET only when they differ by more than 2; a later day rolls over to it, once, and sets the clock, a completed
DEPOSIT that waits and will find the log full being in the overflow count of the closing day (R81), from then on as an overflow
deposit, which is the model's choice (log entry 48). The day never moves back. In SAFE it is the same (R85). -/
def Obligations.TimeSetsTheClock : Prop :=
  ∀ (s : State) (dt : Nat) (r : Received), s.node.StationActs → s.node.log.phase = .opened →
    s.node.line.buffer.find? (fun r => r.telegram.kind == .time) = some r →
    let day := field r.telegram.payload 0 2
    let secs := field r.telegram.payload 2 3
    let c := s.node.clock
    ∃ n : Node, exec (.time dt) s = .next ⟨n, s.pending⟩ ∧ n.now = s.node.now + dt ∧
      n.line.buffer = s.node.line.buffer.eraseP (fun r => r.telegram.kind == .time) ∧
      n.hatch = s.node.hatch ∧ n.sounding = s.node.sounding ∧ n.cards = s.node.cards ∧ n.store = s.node.store ∧
      n.log.held = s.node.log.held ∧
      (86400 ≤ secs ∨ day < c.day → n.clock = c ∧ n.tally = s.node.tally ∧ n.log = s.node.log) ∧
      (secs < 86400 → day = c.day →
        n.clock = { c with seconds := match c.seconds with
          | none => some secs
          | some k => if k + 2 < secs ∨ secs + 2 < k then some secs else some k } ∧
        n.tally = s.node.tally ∧ n.log.accounting = s.node.log.accounting) ∧
      (secs < 86400 → c.day < day →
        n.clock = ⟨day, some secs, some (s.node.now + dt)⟩ ∧
        n.tally = { s.node.tally with entries := [], touches := 0 } ∧
        n.log.accounting = { s.node.log.accounting with
          day := day, total := 0, count := 0, overflowCount := 0, overflowCharge := 0, rebuilt := false } ∧
        ∃ items overflow, s.node.log.ClosesWith items overflow ∧
          (s.node.log.eventsHeld < 3 →
            n.log.appendList = items ++
              [⟨.dayClose s.node.log.accounting.total s.node.log.accounting.count overflow,
                c.day, c.seconds.map (· / 2), s.node.control.settings.fraction, s.node.sounding.fill⟩]) ∧
          (3 ≤ s.node.log.eventsHeld → n.log.appendList = items ∧
            n.log.lost = min 65535 (s.node.log.lost + 1) ∧ n.log.due = true))

/-- The day total and the day deposit count (R84) change at a deposit completion, at a rollover and with what a start reads
back from the store: every command that cannot be one of these leaves them as they were. -/
def Obligations.DayTotalsChangeOnlyByCompletionOrRollover : Prop :=
  ∀ (c : Instr) (s : State) (n : Node), exec c s = .next ⟨n, s.pending⟩ →
    (∀ dt reading, c ≠ .hatchClosed dt reading) → (∀ dt, c ≠ .lift dt) → (∀ dt, c ≠ .clockSecond dt) →
    (∀ dt, c ≠ .time dt) → (∀ dt, c ≠ .logScanEnd dt) → (∀ dt, c ≠ .powerOn dt) → (∀ dt, c ≠ .resetPin dt) →
    (∀ dt, c ≠ .resetPinHeld dt) → (∀ dt, c ≠ .supplyFails dt) → (∀ dt, c ≠ .restart dt) →
    n.log.accounting.total = s.node.log.accounting.total ∧ n.log.accounting.count = s.node.log.accounting.count

/-! ### Nonvolatile store and deposit log (05) -/

/-- ROW_PROGRAM_END (R87 to R89, R92, R95, R109), in SAFE too: the row of the oldest entry holds its new content byte for byte
and is torn no more, every other byte of the store reads as before, and the next waiting entry's program of 4 ms begins at
once. The committed mark advances to a held record whose row, not CONFIRMED, it is. What remains of an accounting row write
enters the free entries at once: the accounting row and then the lifetime row of the same content, or the lifetime row that
was still to be placed. An entry that frees with no other free before it is kept for the deposit log while it has more to
write, and the card table, whose write is not admitted, waits; with nothing of the log waiting none is kept for it, and one
that frees so is kept for the card table, as far as that has rows to place: for the operation at the front in OPEN, for the
rows still to come in a clear. The log's writes are not admitted to the entries kept for the card table, nor the
card table's to any entry while an accounting row write is placed in part (log entry 7). -/
def Obligations.ProgrammedRowHoldsItsContent : Prop :=
  (∀ (s : State) (dt : Nat) (t : Moment) (w : RowWrite) (rest : List RowWrite), s.node.StationActs → s.node.StoreForm →
    s.node.FreedLaw → s.node.store.programEnds = some t → s.node.store.staging = w :: rest → w.bytes.length = 16 →
    let l := s.node.log
    let a := l.accounting
    let b := s.node.store
    let taken := 4 ≤ b.staging.length + b.forLog + b.forCards
    let rows : List RowWrite := [⟨.accounting, 0, accountingRow a⟩, ⟨.accounting, 1, lifetimeRow a⟩]
    ∃ n : Node, exec (.rowProgramEnd dt) s = .next ⟨n, s.pending⟩ ∧ n.now = max (s.node.now + dt) t ∧ n.StoreForm ∧
      Memory.readAll n.store.cells (16 * rowPlace w.region w.row) 16 = w.bytes ∧
      (∀ a, a < 16 * rowPlace w.region w.row ∨ 16 * rowPlace w.region w.row + 16 ≤ a →
        Memory.read n.store.cells a = Memory.read s.node.store.cells a) ∧
      (∀ p, tearOf n.store.torn p = if p = rowPlace w.region w.row then none else tearOf s.node.store.torn p) ∧
      n.store.programEnds = (if n.store.staging = [] then none else some (n.now + 4000)) ∧
      (l.pair = .none → n.store.staging = rest ∧ n.log = { l with committed := n.log.committed, harvest := n.log.harvest }) ∧
      (∀ bytes, l.pair = .lifetimeRow bytes → n.store.staging = rest ++ [⟨.accounting, 1, bytes⟩] ∧
        n.log = { l with committed := n.log.committed, harvest := n.log.harvest, pair := .none, working := none }) ∧
      (l.pair = .both → n.store.staging = (rest ++ rows).take (4 - b.forCards) ∧
        n.log = if rest.length + b.forCards = 3 then
            { l with
              committed := n.log.committed, harvest := n.log.harvest, due := false
              pair := .lifetimeRow (lifetimeRow a) }
          else
            { l with
              committed := n.log.committed, harvest := n.log.harvest, due := false
              pair := .none, working := none }) ∧
      (∀ r : LogRecord, w = ⟨.log, r.seq.toNat % 1024, logRow r⟩ →
        n.log.committed =
          if r.confirmed = false ∧ (∃ x ∈ l.held, x.seq = r.seq) then some r.seq else l.committed) ∧
      (w.region ≠ .log → n.log.committed = l.committed) ∧
      (n.log.hasWork = true → n.store.forCards = b.forCards ∧
        (taken → n.store.forLog = 4 - (n.store.staging.length + b.forCards) ∧
          (n.cardsAdmitted = true ↔ n.log.pair = .none ∧ 0 < b.forCards)) ∧
        (¬ taken → n.store.forLog = b.forLog - (n.store.staging.length - rest.length))) ∧
      (n.log.hasWork = false → n.store.forLog = 0 ∧ (l.pair = .none → n.cardsAdmitted = true) ∧
        n.store.forCards =
          if taken then min n.cards.rowsWaiting (4 - n.store.staging.length) else b.forCards) ∧
      n.tally = s.node.tally ∧ n.hatch = s.node.hatch ∧ n.press = s.node.press) ∧
  (∀ n : Node, n.logReady = true ↔ n.log.phase = .opened ∧ n.log.pair = .none ∧ n.log.working = none ∧
    n.store.staging.length + n.store.forCards < 4) ∧
  ∀ c : Cards,
    (∀ row, c.progress = some row → (c.phase = .clearing → c.rowsWaiting = 1024 - row) ∧
      (c.phase = .revokeClearing → c.rowsWaiting = 64 - row)) ∧
    (c.phase = .opened → (c.update = none → c.rowsWaiting = 0) ∧
      ∀ index op ops buffered, c.update = some ⟨(index, op) :: ops, buffered⟩ →
        c.rowsWaiting ≤ 1 ∧ (c.rowsWaiting = 1 ↔ match op with
          | .add number cls status rights tariff =>
            (∃ r, addRecord number cls status rights tariff = some r) ∧ ∃ slot, c.slotFor number = some slot
          | .remove number => ∃ p, slotHolding c.slots number = some p
          | .revokeAdd number =>
            (∀ p ∈ c.revoked, p.2 ≠ number) ∧ ∃ position, lowestFree c.revoked 0 128 = some position
          | .revokeRemove number => ∃ p ∈ c.revoked, p.2 = number
          | .clear | .revokeClear | .unknown => False))

/-- A row changes only when the program of a row write ends, or when a start or a failing supply tears it (R87, R88): every
other command leaves every byte of the store and every torn row as they were. A torn row keeps its listed bytes, which no
reader sees, and stands for free values in their place: the model's choice (log entry 8). -/
def Obligations.OnlyAProgramOrAStartChangesARow : Prop :=
  ∀ (c : Instr) (s : State) (n : Node), exec c s = .next ⟨n, s.pending⟩ → (∀ dt, c ≠ .rowProgramEnd dt) →
    n.store.cells = s.node.store.cells ∧
      ((∀ dt, c ≠ .powerOn dt) → (∀ dt, c ≠ .resetPin dt) → (∀ dt, c ≠ .resetPinHeld dt) →
        (∀ dt, c ≠ .supplyFails dt) → (∀ dt, c ≠ .restart dt) →
        n.store.torn = s.node.store.torn ∧ s.node.store.staging <+: n.store.staging)

/-- RECORD_APPEND (R76, R89, R94, R95, R98, R109) when the log is OPEN, has none of its writes under way and the staging queue
admits one, with an entry free beyond those kept for the card table, in SAFE too; until then it and the two commands below
wait. Below 1,024 records the oldest item gets the next sequence number and is held as the newest, and its row and the two
accounting rows take the next free entries; in a full log a DEPOSIT is counted in the overflow counters, with one accounting
row write, and any other record is lost and counted. An overflow deposit that a rollover has counted before gets its
accounting row write and no record, also with room in the log (R81; the model's choice, log entry 48). Once no RESTART record
of a start waits in the append list any more, appended or lost, the tally table is rebuilt from the records then held, if a
completion has not needed it before, read by inference from R76 and R108 (log entry 45; for a rollover or a confirm before it
the model's choice, log entry 47): where at most 384 cards deposited on the day, each has the number of its held DEPOSITs of
that day as local count, up to 15, and heard count 0. While a RESTART record waits the table is left alone. ACCOUNTING_WRITE
and CONFIRM_MARK_WRITE (R92, R93, R103): with accounting due and the append list empty, one accounting row write is placed
with the content as it stands and accounting is due no more; a pending mark that no item waits ahead of is placed as its
record's row with the CONFIRMED marker set, though items that entered after it still wait (log entry 19), and one whose row an
append has given to a newer record is discarded; the entries kept for the log as they freed stay its own while it has more to
write, and then are free, or the card table's if no other was (R89, log entry 7). -/
def Obligations.LogWritesAreTakenInOrder : Prop :=
  (∀ (s : State) (dt : Nat) (e : LogEntry) (rest : List LogEntry), s.node.StationActs → s.node.logReady = true →
     s.node.log.appendList = e :: rest →
     let l := s.node.log
     let b := s.node.store
     let rows (a : Accounting) : List RowWrite := [⟨.accounting, 0, accountingRow a⟩, ⟨.accounting, 1, lifetimeRow a⟩]
     ∃ n : Node, exec (.recordAppend dt) s = .next ⟨n, s.pending⟩ ∧ n.log.appendList = rest ∧
       n.log.markAhead = l.markAhead - 1 ∧
       n.cards = s.node.cards ∧ n.hatch = s.node.hatch ∧ n.sounding = s.node.sounding ∧ n.clock = s.node.clock ∧
       n.store.cells = s.node.store.cells ∧
       (e.isOverflow = true → n.log.held = l.held ∧ n.log.mark = l.mark ∧ n.log.accounting = l.accounting ∧
         n.store.staging = (b.staging ++ rows l.accounting).take (4 - b.forCards) ∧ n.log.lost = l.lost) ∧
       (l.held.length < 1024 → e.isOverflow = false →
         n.log.held = l.held ++ [⟨l.accounting.next, e, false⟩] ∧
         n.log.accounting = { l.accounting with next := l.accounting.next + 1 } ∧
         (∀ m, l.mark = some m →
           n.log.mark = if m.seq.toNat % 1024 = l.accounting.next.toNat % 1024 then none else some m) ∧
         (l.mark = none → n.log.mark = none) ∧
         n.store.staging = (b.staging ++
           RowWrite.mk .log (l.accounting.next.toNat % 1024) (logRow ⟨l.accounting.next, e, false⟩) ::
             rows n.log.accounting).take (4 - b.forCards)) ∧
       (1024 ≤ l.held.length → e.isOverflow = false → n.log.held = l.held ∧ n.log.mark = l.mark ∧
         if e.isDeposit = true then
           n.log.accounting = { l.accounting with
             overflowCount := min 65535 (l.accounting.overflowCount + 1)
             overflowCharge := min 16777215 (l.accounting.overflowCharge + e.charge) } ∧
           n.store.staging = (b.staging ++ rows n.log.accounting).take (4 - b.forCards) ∧ n.log.lost = l.lost
         else
           n.log.accounting = l.accounting ∧ n.store.staging = b.staging ∧ n.log.lost = min 65535 (l.lost + 1)) ∧
       (n.log.hasWork = true →
         n.store.forLog = b.forLog - (n.store.staging.length - b.staging.length) ∧ n.store.forCards = b.forCards) ∧
       (n.log.hasWork = false → n.store.forLog = 0 ∧
         n.store.forCards = if 4 ≤ b.staging.length + b.forLog + b.forCards then
           min s.node.cards.rowsWaiting (4 - n.store.staging.length) else b.forCards) ∧
       n.tally = (if rest.any LogEntry.isRestart = false ∧ s.node.tally.rebuilt = false then
         { n.log.held.foldl (rebuildRecord s.node.clock.day) s.node.tally with rebuilt := true } else s.node.tally) ∧
       (let deposits (card : CardNumber) : List LogRecord := n.log.held.filter (fun r =>
          match r.entry.body with
          | .deposit c _ _ _ _ => c == card && r.entry.day == s.node.clock.day
          | _ => false)
        rest.any LogEntry.isRestart = false → s.node.tally.rebuilt = false → s.node.tally.entries = [] →
        (∃ cards : List CardNumber, cards.length ≤ 384 ∧ ∀ card, deposits card ≠ [] → card ∈ cards) →
        n.tally.loss = s.node.tally.loss ∧
        ∀ card, (tallyEntry card n.tally.entries).map (fun t => (t.loc, t.heard)) =
          if deposits card = [] then none else some (min 15 (deposits card).length, 0))) ∧
  (∀ (s : State) (dt : Nat), s.node.StationActs → s.node.logReady = true →
    let b := s.node.store
    (s.node.log.due = true → s.node.log.appendList = [] →
      ∃ n : Node, exec (.accountingWrite dt) s = .next ⟨n, s.pending⟩ ∧ n.log.due = false ∧
        n.store.staging = (b.staging ++
          [RowWrite.mk .accounting 0 (accountingRow s.node.log.accounting),
            RowWrite.mk .accounting 1 (lifetimeRow s.node.log.accounting)]).take (4 - b.forCards) ∧
        (n.log.hasWork = true →
          n.store.forLog = b.forLog - (n.store.staging.length - b.staging.length) ∧ n.store.forCards = b.forCards) ∧
        (n.log.hasWork = false → n.store.forLog = 0 ∧
          n.store.forCards = if 4 ≤ b.staging.length + b.forLog + b.forCards then
            min s.node.cards.rowsWaiting (4 - n.store.staging.length) else b.forCards) ∧
        n.log.accounting = s.node.log.accounting ∧ n.log.held = s.node.log.held ∧
        n.store.cells = b.cells ∧ n.cards = s.node.cards ∧ n.hatch = s.node.hatch) ∧
    (∀ r : LogRecord, s.node.log.mark = some r → s.node.log.markAhead = 0 →
      let more := s.node.log.appendList ≠ [] ∨ s.node.log.due = true
      exec (.confirmMarkWrite dt) s = .next
        ⟨{ s.node with
            now := s.node.now + dt
            log := { s.node.log with mark := none }
            store := { b.place (s.node.now + dt) ⟨.log, r.seq.toNat % 1024, logRow { r with confirmed := true }⟩ with
              forLog := if more then b.forLog - 1 else 0
              forCards := if ¬ more ∧ 4 ≤ b.staging.length + b.forLog + b.forCards then
                min s.node.cards.rowsWaiting (4 - (b.staging.length + 1)) else b.forCards } }, s.pending⟩)) ∧
  ∀ (s : State) (dt : Nat), s.node.StationActs → s.node.logReady = false →
    ∀ c, c = Instr.recordAppend dt ∨ c = .accountingWrite dt ∨ c = .confirmMarkWrite dt →
      exec c s = .next ⟨{ s.node with now := s.node.now + dt }, s.pending⟩

/-- HARVEST_REQUEST and HARVEST_ANSWER (R100 to R102). A request taken fixes a harvest that ends at the committed mark and
begins at the sequence asked for, or at the oldest held with GAP set, for 1 to 30 records, in place of an earlier one. With
the queue admitting it, the next answer carries up to three records in sequence order from the next one on, none beyond the
end; GAP stands on the first only, LAST on the one that reaches the end. An answer without records carries the next sequence
too (12.1); that this is the sequence asked for when that lies beyond the newest, and that the control byte's other bits are
0, is the model's choice (log entries 24 and 52). With the queue full, or behind other offers, the answer waits with its
producer and is built when it enters (R140). -/
def Obligations.HarvestIsFixedAndAnswered : Prop :=
  ∀ (s : State) (dt : Nat), s.node.StationRuns → s.node.log.phase = .opened →
    (∀ r : Received, s.node.line.buffer.find? (fun r => r.telegram.kind.taker == .log) = some r →
      r.telegram.kind = .harvestRequest →
      let from' : Sequence := BitVec.ofNat 24 (field r.telegram.payload 1 3)
      let m := field r.telegram.payload 4 1
      let older := placeOf s.node.log.held from' = .olderThanOldest
      ∃ n : Node, exec (.harvestRequest dt) s = .next ⟨n, s.pending⟩ ∧
        n.log.harvest = some
          { tag := field r.telegram.payload 0 1
            stop := s.node.log.committed
            next := if older then (s.node.log.held.head?.map (·.seq)).getD from' else from'
            gap := decide older
            remaining := if m = 0 then 1 else if m ≤ 30 then m else 30
            out := none } ∧
        n.log.held = s.node.log.held ∧ n.log.accounting = s.node.log.accounting ∧ n.store = s.node.store ∧
        n.line.buffer = s.node.line.buffer.eraseP (fun r => r.telegram.kind.taker == .log)) ∧
    (∀ h : Harvest, s.node.log.harvest = some h → h.out = none →
      (6 ≤ s.node.line.queue.length ∨ s.node.line.waiting ≠ []) → Producer.harvest ∉ s.node.line.waiting →
      exec (.harvestAnswer dt) s = .next
        ⟨{ s.node with
            now := s.node.now + dt
            line := { s.node.line with waiting := s.node.line.waiting ++ [.harvest] } }, s.pending⟩) ∧
    (∀ h : Harvest, s.node.log.harvest = some h → h.out = none → s.node.line.waiting = [] →
      s.node.line.queue.length < 6 →
      ∃ (n : Node) (records : List LogRecord) (last : Bool), exec (.harvestAnswer dt) s = .next ⟨n, s.pending⟩ ∧
        n.line.queue = insertEntry ⟨s.node.telegram .harvestAnswer 250 (harvestPayload h.tag h.gap last h.next records),
          3, s.node.line.nextAge, 0, false, .depositLog⟩ s.node.line.queue ∧
        records.length ≤ 3 ∧ records.length ≤ h.remaining ∧
        (∀ k r, records[k]? = some r → r ∈ s.node.log.held ∧ r.seq = h.next + BitVec.ofNat 24 k ∧
          beyondEnd h.stop r.seq = false) ∧
        n.log.harvest = some { h with
          next := h.next + BitVec.ofNat 24 records.length
          remaining := h.remaining - records.length
          gap := false
          out := some last } ∧
        (last = true ↔ h.remaining = records.length ∨
          beyondEnd h.stop (h.next + BitVec.ofNat 24 records.length) = true ∨
          ∀ r ∈ s.node.log.held, r.seq ≠ h.next + BitVec.ofNat 24 records.length) ∧
        (last = false → records.length = 3) ∧ n.log.held = s.node.log.held ∧ n.store = s.node.store)

/-- HARVEST_CONFIRM (R99, R103): a held sequence frees the records from the oldest to it, one beyond the newest frees all, any
other nothing. The newest freed record becomes the pending mark, and the committed mark stays while its record is held. That
the mark waits for as many items as stand in the append list then, with the OVERFLOW SUMMARY of the same confirm, is read from
R103 by inference (log entry 19). With overflow deposits or lost records counted, an OVERFLOW SUMMARY of them enters ahead of
every item that waits, and the overflow count, the overflow charge and the lost event count start again at 0; with the event
list full its newest record is lost for it and counted. Nothing else changes. -/
def Obligations.ConfirmFreesUpToTheSequence : Prop :=
  ∀ (s : State) (dt : Nat) (r : Received), s.node.StationRuns → s.node.LogLaw → s.node.log.phase = .opened →
    s.node.line.buffer.find? (fun r => r.telegram.kind.taker == .log) = some r → r.telegram.kind = .harvestConfirm →
    let u : Sequence := BitVec.ofNat 24 (field r.telegram.payload 0 3)
    let l := s.node.log
    let summary : LogEntry := ⟨.overflowSummary l.accounting.overflowCount l.accounting.overflowCharge l.lost,
      s.node.clock.day, s.node.clock.seconds.map (· / 2), s.node.control.settings.fraction, s.node.sounding.fill⟩
    let leaves (log : Log) : Prop :=
      exec (.harvestConfirm dt) s = .next
        ⟨{ s.node with
            now := s.node.now + dt
            line := { s.node.line with buffer := s.node.line.buffer.eraseP (fun r => r.telegram.kind.taker == .log) }
            log := log }, s.pending⟩
    let frees (kept : List LogRecord) (newest : LogRecord) : Prop :=
      let freed : Log := { l with
        held := kept
        committed := l.committed.filter (fun q => kept.any (fun x => x.seq == q))
        mark := some newest
        markAhead := l.appendList.length }
      let summed : Log := { freed with
        accounting := { l.accounting with overflowCount := 0, overflowCharge := 0 }
        lost := 0
        appendList := summary :: l.appendList
        markAhead := l.appendList.length + 1 }
      (l.accounting.overflowCount = 0 → l.lost = 0 → leaves freed) ∧
      (l.accounting.overflowCount ≠ 0 ∨ l.lost ≠ 0 →
        (l.eventsHeld < 3 → leaves summed) ∧
        (3 ≤ l.eventsHeld → ∀ ahead e behind, l.appendList = ahead ++ e :: behind → e.isDeposit = false →
          (∀ x ∈ behind, x.isDeposit = true) →
          leaves { summed with
            lost := 1
            due := l.due || e.isDayClose
            appendList := summary :: (ahead ++ behind)
            markAhead := (ahead ++ behind).length + 1 }))
    (∀ k x, l.held[k]? = some x → x.seq = u → frees (l.held.drop (k + 1)) x) ∧
    (∀ w, l.held.getLast? = some w → 1 ≤ (u - w.seq).toNat → (u - w.seq).toNat ≤ 8388607 → frees [] w) ∧
    (l.held = [] ∨ (∃ w, l.held.getLast? = some w ∧ 8388607 < (u - w.seq).toNat ∧ ∀ x ∈ l.held, x.seq ≠ u) →
      leaves l)

/-- The start scan of the log (R105 to R107), with `w` the newest record found, the latest in the span of sequence numbers.
The records held are the run of unmarked records that ends at `w`: each is what its row, passing its check, holds (with the
bits that 12.3 writes 0 disregarded, here and in the lifetime row, the model's choice, log entry 41), the
sequence numbers rise by one, and the run does not stop before a row that would continue it. With no record found, or `w`
marked, none is held. A failing lifetime row, and a failing accounting row, set ACCOUNTING REBUILT; the second is rebuilt from
`w` and the records held (R106). With it passing, N = w + 1 is left; N = w folds `w` in, by its kind; N beyond w + 1 frees
every held record and is kept (R107); that an N before w becomes w + 1, and that the day after a DAY CLOSE of day 65,535,
rebuilt or folded, stays 65,535, are the model's choice (log entry 20). LOG_SCAN_END (R45, R77, R108, R109, R159, R161), in
SAFE too: the log is OPEN with what the scan found, the clock takes the day, the call unit its last tag, and the RESTART
record comes first in the append list, with an OVERFLOW SUMMARY behind it when overflow deposits stand in the content and the
log is not full, judged before the RESTART record is appended, which is the model's choice (log entry 51). A station in
STARTING whose other start conditions hold leaves it, and a call may be raised then. The tally table is rebuilt later (log
entry 45). -/
def Obligations.LogScanHoldsTheNewestRunAndRepairs : Prop :=
  (∀ st : Store,
     let run := st.scanLog.held
     let acc := st.scanLog.accounting
     let life := match st.readRow .accounting 1 with
       | some b => readLifetimeRow b .initial
       | none => { Accounting.initial with rebuilt := true }
     let found (r : LogRecord) : Prop := ∃ row, row < 1024 ∧ st.logRecord row = some r
     let newest (w : LogRecord) : Prop := found w ∧ ∀ r, found r → (w.seq - r.seq).toNat < 1024
     (∀ r ∈ run, st.logRecord (r.seq.toNat % 1024) = some r ∧ r.confirmed = false) ∧
     (∀ k a b, run[k]? = some a → run[k + 1]? = some b → b.seq = a.seq + 1) ∧
     (∀ o, run.head? = some o → run.length < 1024 →
       ∀ r, st.logRecord ((o.seq - 1).toNat % 1024) = some r → r.seq = o.seq - 1 → r.confirmed = true) ∧
     (((∀ r, ¬ found r) ∨ ∃ w, newest w ∧ w.confirmed = true) → run = []) ∧
     (st.readRow .accounting 0 = none → st.scanLog.changed = true ∧
       ((∀ r, ¬ found r) → acc = { life with
         day := 0, total := 0, count := 0, overflowCount := 0, overflowCharge := 0, next := 0, rebuilt := true }) ∧
       ∀ w, newest w →
         let day := if w.entry.isDayClose = true then min 65535 (w.entry.day + 1) else w.entry.day
         let counted := if w.entry.isDayClose = true then []
           else run.filter (fun r => r.entry.isDeposit && r.entry.day == day)
         (w.confirmed = false → run.getLast? = some w) ∧
         acc = { life with
           day := day
           total := min 16777215 (counted.map (fun r => r.entry.charge)).sum
           count := min 65535 counted.length
           overflowCount := 0
           overflowCharge := 0
           next := w.seq + 1
           rebuilt := true }) ∧
     (∀ b, st.readRow .accounting 0 = some b →
       let a := readAccountingRow b life
       let lifeFailed := (st.readRow .accounting 1).isNone
       (((∀ r, ¬ found r) ∨ ∃ w, newest w ∧ w.confirmed = true) → acc = a ∧ st.scanLog.changed = lifeFailed) ∧
       ∀ w, newest w → w.confirmed = false →
         (a.next = w.seq + 1 → run.getLast? = some w ∧ acc = a ∧ st.scanLog.changed = lifeFailed) ∧
         (a.next = w.seq → run.getLast? = some w ∧ st.scanLog.changed = true ∧
           acc = match w.entry.body with
             | .deposit _ charge _ _ _ =>
               let b := if a.day < w.entry.day then
                   { a with day := w.entry.day, total := 0, count := 0, overflowCount := 0, overflowCharge := 0 }
                 else a
               { b with
                 next := w.seq + 1
                 total := min 16777215 (b.total + charge)
                 count := min 65535 (b.count + 1)
                 hatchCycles := min 16777215 (b.hatchCycles + 1) }
             | .dayClose .. => { a with
                 next := w.seq + 1, day := min 65535 (w.entry.day + 1), total := 0, count := 0, overflowCount := 0
                 overflowCharge := 0, rebuilt := false }
             | .overflowSummary .. => { a with next := w.seq + 1, overflowCount := 0, overflowCharge := 0 }
             | _ => { a with next := w.seq + 1 }) ∧
         (1 ≤ (a.next - (w.seq + 1)).toNat → (a.next - (w.seq + 1)).toNat ≤ 8388607 →
           run = [] ∧ acc = a ∧ st.scanLog.changed = true) ∧
         (8388607 < (a.next - (w.seq + 1)).toNat → a.next ≠ w.seq →
           run.getLast? = some w ∧ acc = { a with next := w.seq + 1 } ∧ st.scanLog.changed = true))) ∧
  ∀ (s : State) (dt : Nat), s.node.StationActs → s.node.log.phase = .scanning →
    ∃ n : Node, exec (.logScanEnd dt) s = .next ⟨n, s.pending⟩ ∧
      (let scan := s.node.store.scanLog
       let acc := scan.accounting
       let restart : LogEntry := ⟨.restart (BitVec.ofNat 8 s.node.control.cause.code), acc.day,
         s.node.clock.seconds.map (· / 2), s.node.control.settings.fraction, none⟩
       let summary : LogEntry := ⟨.overflowSummary acc.overflowCount acc.overflowCharge s.node.log.lost, acc.day,
         s.node.clock.seconds.map (· / 2), s.node.control.settings.fraction, s.node.sounding.fill⟩
       let summed := 0 < acc.overflowCount ∧ scan.held.length < 1024
       n.log.phase = .opened ∧ n.log.held = scan.held ∧ n.log.committed = scan.held.getLast?.map (·.seq) ∧
       n.log.accounting = (if summed then { acc with overflowCount := 0, overflowCharge := 0 } else acc) ∧
       n.log.appendList.head? = some restart ∧
       (s.node.log.early = [] →
         n.log.appendList = (if summed then [restart, summary] else [restart]) ∧ n.log.due = scan.changed) ∧
       n.clock = { s.node.clock with day := acc.day } ∧ n.store = s.node.store ∧ n.cards = s.node.cards ∧
       n.tally = s.node.tally ∧ n.sounding = s.node.sounding ∧
       Node.StartsWhen (s.node.control.phase = .running ∧ s.node.cards.phase ≠ .scanning ∧ s.node.pressHome = true ∧
         s.node.hatch.firstSounding = true) s.node n ∧
       Node.RaisesCallWhen (s.node.hatch.station = .starting)
         { s.node with call := { s.node.call with lastTag := acc.next.toNat % 64 } } n)

/-! ### Press control and island power claims (06) -/

/-- PRESS_CLAIM, PRESS_RELEASE and CLAIM_ENTRY_EXPIRY (R116): a claim of the own island puts its sender last with an expiry
the claimed duration plus 5 s after its receipt, the oldest leaving when 8 are held; a release removes its sender; a telegram
of another island changes nothing; the entry that expires first leaves at its expiry. No more than 8 entries stand and none
for one address twice. -/
def Obligations.IslandClaimListFollowsTheLine : Prop :=
  (∀ (s : State) (dt : Nat), s.node.StationRuns → s.node.control.settings.pressFitted = true →
    (∀ r : Received, s.node.line.buffer.find? (fun r => r.telegram.kind.taker == .press) = some r →
      let taken (claims : List ClaimEntry) := { s.node with
        now := s.node.now + dt
        line := { s.node.line with buffer := s.node.line.buffer.eraseP (fun r => r.telegram.kind.taker == .press) }
        press := { s.node.press with claims := claims } }
      let own := field r.telegram.payload 0 1 = s.node.control.settings.island
      let others := s.node.press.claims.filter (fun e => e.address != r.telegram.sender)
      let seconds := let d := field r.telegram.payload 1 1; if d = 0 then 1 else if d ≤ 60 then d else 60
      (r.telegram.kind = .pressClaim →
        exec (.pressClaim dt) s = .next
          ⟨taken (if own then
            (if others.length < 8 then others else others.drop 1) ++
              [⟨r.telegram.sender, r.endedAt + seconds * 1000000 + 5000000⟩]
            else s.node.press.claims), s.pending⟩) ∧
      (r.telegram.kind = .pressRelease →
        exec (.pressRelease dt) s = .next ⟨taken (if own then others else s.node.press.claims), s.pending⟩)) ∧
    (∀ e : ClaimEntry, firstExpiring s.node.press.claims = some e →
      exec (.claimEntryExpiry dt) s = .next
        ⟨{ s.node with
            now := max (s.node.now + dt) e.expiry
            press := { s.node.press with
              claims := s.node.press.claims.filter (fun x => x.address != e.address) } }, s.pending⟩)) ∧
  (∀ (claims : List ClaimEntry) (e : ClaimEntry), firstExpiring claims = some e →
    e ∈ claims ∧ ∀ x ∈ claims, e.expiry ≤ x.expiry) ∧
  ∀ (claims : List ClaimEntry) (address : Nat) (expiry : Moment),
    claims.length ≤ 8 → claims.Pairwise (fun a b => a.address ≠ b.address) →
    (enterClaim address expiry claims).length ≤ 8 ∧
      (enterClaim address expiry claims).Pairwise (fun a b => a.address ≠ b.address) ∧
      (enterClaim address expiry claims).getLast? = some ⟨address, expiry⟩

/-- TRANSMISSION_SENT of the own claim (R114, R115, R117 to R120): the claim is entered last and judged at once. With fewer
other entries than the press limit it is granted: given up when something goes on at the hatch, INHIBITED for 10 min on a low
supply, else the stroke begins with the forward drive at 30%; within the dead interval of a reverse drive the stroke waits in
FORWARD with the drive off, which is read from R120 by inference (log entry 15). Else it is refused with a retry
wait of 20 to 60 s. Every claim that does not lead to a stroke is released, and the own entry leaves the list. A forward drive
that starts abandons a sounding in flight, whose markers return in a request due 3 s later (R22). -/
def Obligations.OwnClaimIsJudgedWhenSent : Prop :=
  ∀ (s : State) (dt : Nat) (supplyLow : Bool) (e : QueueEntry), s.node.StationRuns →
    s.node.line.transmitter = .sending → s.node.line.queue.find? (·.sending) = some e →
    e.owner = .pressUnit → e.telegram.kind = .pressClaim → s.node.press.state = .claiming →
    let now' := s.node.now + dt
    let p := s.node.press
    let others := p.claims.filter (fun x => x.address != s.node.ownAddress)
    let ahead := if others.length < 8 then others else others.drop 1
    let quiet := s.node.hatch.phase = .idle ∧ s.node.hatch.hatch = .closed ∧ s.node.hatch.lift = .seated
    ∃ n : Node, exec (.transmissionSent dt supplyLow) s = .next ⟨n, s.pending⟩ ∧ n.line.transmitter = .idle ∧
      (∀ x ∈ n.line.queue, x.age ≠ e.age ∨ s.node.line.nextAge ≤ e.age) ∧
      n.hatch = s.node.hatch ∧ n.store = s.node.store ∧ n.tally = s.node.tally ∧ n.cards = s.node.cards ∧
      (n.press.state ≠ .forward → n.sounding = s.node.sounding) ∧
      (let released : Prop := n.press.claims = ahead ∧ n.press.claim = .absent ∧ n.press.drive = p.drive ∧
         (s.node.line.queue.length ≤ 5 → ∃ x ∈ n.line.queue,
           x.telegram = s.node.telegram .pressRelease 0 [BitVec.ofNat 8 s.node.control.settings.island])
       if s.node.control.settings.pressLimit ≤ ahead.length then
         n.press.state = .home ∧ released ∧
           ∃ t, n.press.retry = some t ∧ now' + 20000000 ≤ t ∧ t ≤ now' + 60000000
       else if ¬ quiet then n.press.state = .home ∧ released ∧ n.press.retry = p.retry
       else if supplyLow then
         n.press.state = .inhibited ∧ released ∧ n.press.inhibit = some (now' + 600000000) ∧ n.press.retry = p.retry
       else
         n.press.state = .forward ∧ n.press.claim = .opened ∧
           n.press.claims = ahead ++ [⟨s.node.ownAddress, now' + 55000000⟩] ∧
           if p.lastDirection = some .reverse ∧ now' < p.offSince + 250000 then
             n.press.forwardDue = some (p.offSince + 250000) ∧ n.press.drive = p.drive ∧
               (p.drive = none → n.sounding = s.node.sounding)
           else
             n.press.drive = some ⟨.forward, 30, now', now' + 100000⟩ ∧
               n.sounding = s.node.sounding.abandonedAt now')

/-- The commands that end a wait or a phase of the stroke (R112, R117, R118, R120, R121, R124). RETRY_TIMER_EXPIRY and
INHIBIT_TIMER_EXPIRY evaluate the trigger in HOME: with its conditions a PRESS CLAIM of 50 s is queued. SOFT_START_STEP raises
the duty by 7% every 100 ms, or begins a forward drive that waited for the dead interval (log entry 15). LOAD_TRIP after the
soft start, END_SWITCH_ACTIVE and FORWARD_TIME_LIMIT end forward drive with a dwell of 2 s; an end switch that settles or
changes to INACTIVE, or changes with no forward drive on, is only recorded (log entry 16). DWELL_END starts the reverse drive;
REVERSE_TIME_LIMIT at 25 s of drive enters FAULT with the station OUT OF SERVICE: an own claim that is OPEN is released, with a
PRESS RELEASE queued and the own entry taken from the claim list (R119), and with none there is no release. The forward drive
that starts abandons a sounding in flight, whose markers return in a request due 3 s later (R22). -/
def Obligations.StrokeRunsThroughItsPhases : Prop :=
  ∀ (s : State) (dt : Nat), s.node.StationRuns → s.node.control.settings.pressFitted = true →
    let now' := s.node.now + dt
    let p := s.node.press
    let triggers := (s.node.hatch.station = .ready ∨ s.node.hatch.station = .service) ∧
      ((∃ f, s.node.sounding.fill = some f ∧ s.node.control.settings.pressThreshold ≤ f) ∨
        s.node.sounding.full = true) ∧ 4 ≤ p.deposits ∧ s.node.inPressHours = true ∧ s.node.hatch.phase = .idle ∧
      s.node.hatch.hatch = .closed ∧ s.node.hatch.lift = .seated ∧ s.node.sounding.flight = none
    let claims (n : Node) : Prop := n.press.state = .claiming ∧ n.press.claim = .queued ∧
      ∃ x ∈ n.line.queue,
        x.telegram = s.node.telegram .pressClaim 0 [BitVec.ofNat 8 s.node.control.settings.island, 50]
    let dwelling (t : Moment) : Node := { s.node with
      now := t
      press := { p with
        state := .dwell
        kind := .normal
        drive := none
        offSince := t
        forwardDue := none
        dwellEnds := some (t + 2000000) } }
    (∀ t, p.retry = some t → s.node.line.queue.length < 6 →
      ∃ n : Node, exec (.retryTimerExpiry dt) s = .next ⟨n, s.pending⟩ ∧ n.now = max now' t ∧ n.press.retry = none ∧
        (p.state = .home ∧ triggers → claims n) ∧
        (¬ (p.state = .home ∧ triggers) → n.press = { p with retry := none })) ∧
    (∀ t, p.inhibit = some t → p.state = .inhibited → p.retry = none → s.node.line.queue.length < 6 →
      ∃ n : Node, exec (.inhibitTimerExpiry dt) s = .next ⟨n, s.pending⟩ ∧ n.now = max now' t ∧
        n.press.inhibit = none ∧ (triggers → claims n) ∧
        (¬ triggers → n.press = { p with inhibit := none, state := .home })) ∧
    (∀ d, p.drive = some d → p.forwardDue = none → d.duty < 100 →
      exec (.softStartStep dt) s = .next
        ⟨{ s.node with
            now := max now' d.stepDue
            press := { p with
              drive := some { d with duty := min 100 (d.duty + 7), stepDue := d.stepDue + 100000 } } }, s.pending⟩) ∧
    (∀ t, p.forwardDue = some t →
      ∃ n : Node, exec (.softStartStep dt) s = .next ⟨n, s.pending⟩ ∧ n.now = max now' t ∧
        n.press = { p with
          drive := some ⟨.forward, 30, max now' t, max now' t + 100000⟩
          lastDirection := some .forward
          forwardDue := none } ∧
        n.sounding = s.node.sounding.abandonedAt n.now ∧ n.hatch = s.node.hatch ∧ n.cards = s.node.cards ∧
        n.store = s.node.store ∧ n.log = s.node.log ∧ n.tally = s.node.tally) ∧
    (∀ isActive : Bool, isActive = false ∨ p.state ≠ .forward ∨ p.drive = none →
      exec (.endSwitchActive ⟨dt, isActive⟩) s = .next
        ⟨{ s.node with
            now := now'
            press := { p with endSwitch := if isActive then .active else .inactive } }, s.pending⟩) ∧
    (∀ d, p.state = .forward → p.drive = some d →
      exec (.loadTrip dt) s = .next
        ⟨if 100 ≤ d.duty then dwelling now' else { s.node with now := now' }, s.pending⟩ ∧
      exec (.endSwitchActive ⟨dt, true⟩) s = .next
        ⟨{ dwelling now' with press := { (dwelling now').press with endSwitch := .active } }, s.pending⟩ ∧
      exec (.forwardTimeLimit dt) s = .next ⟨dwelling (max now' (d.began + 20000000)), s.pending⟩) ∧
    (∀ t, p.state = .dwell → p.dwellEnds = some t →
      exec (.dwellEnd dt) s = .next
        ⟨{ s.node with
            now := max now' t
            press := { p with
              state := .reversing
              drive := some ⟨.reverse, 30, max now' t, max now' t + 100000⟩
              lastDirection := some .reverse
              forwardDue := none
              paused := false
              dwellEnds := none
              reverseUsed := 0 } }, s.pending⟩) ∧
    (∀ d, p.state = .reversing → p.drive = some d →
      ∃ n : Node, exec (.reverseTimeLimit dt) s = .next ⟨n, s.pending⟩ ∧
        n.now = max now' (d.began + (25000000 - p.reverseUsed)) ∧
        n.press.state = .fault ∧ n.press.drive = none ∧ n.pressHome = false ∧
        n.hatch.station = (if s.node.hatch.station = .safe then .safe else .outOfService) ∧
        (p.claim = .opened → n.press.claim = .absent ∧
          n.press.claims = p.claims.filter (fun x => x.address != s.node.ownAddress) ∧
          (s.node.line.queue.length ≤ 4 → ∃ x ∈ n.line.queue, x.owner = .pressUnit ∧
            x.telegram = s.node.telegram .pressRelease 0 [BitVec.ofNat 8 s.node.control.settings.island])) ∧
        (p.claim ≠ .opened → n.press.claim = p.claim ∧ n.press.claims = p.claims ∧
          ∀ x ∈ n.line.queue, x.telegram.kind = .pressRelease → x ∈ s.node.line.queue) ∧
        n.cards = s.node.cards ∧ n.store = s.node.store ∧ n.tally = s.node.tally ∧ n.sounding = s.node.sounding)

/-- The home switch (R45, R57, R59, R119, R121, R126 to R128, R161). HOME_SWITCH_ACTIVE in REVERSE ends the drive in HOME: a
cycle queues a PRESS RELEASE, the own entry leaves the claim list, the deposit count is 0, a press cycle is counted and a
sounding armed 5 s later, or for the later due time of the request held (R19), while homing and recovery do none of this, and a
request whose due time has passed may start a sounding (R21); a deferred release becomes a window, or ends with code 11
for a revoked card; a station OUT OF SERVICE, or in STARTING with its other start conditions met, leaves it, and a call may
be raised then. HOME_SWITCH_SETTLED and HOMING_DRIVE_START home the press at a start, the drive abandoning a sounding in flight
(R22); HOME_SWITCH_CHANGE in SAFE moves what the
press reads, and a window ends with the reading at home. Where no rule gives the home switch an effect a change of it is only
recorded, which is the model's choice (log entries 16 and 31). -/
def Obligations.HomeSwitchEndsTheReturn : Prop :=
  ∀ (s : State) (dt : Nat) (reading : Option Int), s.node.StationActs → s.node.control.settings.pressFitted = true →
    let now' := s.node.now + dt
    let p := s.node.press
    let h := s.node.hatch
    let read (isActive : Bool) : Press := { p with homeSwitch := if isActive then .active else .inactive }
    let others := s.node.cards.phase ≠ .scanning ∧ s.node.log.phase = .opened ∧ h.firstSounding = true
    let homing : Node → Prop := fun n => n.press.drive = some ⟨.reverse, 30, n.now, n.now + 100000⟩ ∧
      n.press.state = .reversing ∧ n.press.kind = .homing ∧ n.press.homingFrom = none ∧
      n.sounding = s.node.sounding.abandonedAt n.now
    let atHome (n : Node) : Prop := n.press.drive = none ∧ n.press.homeSwitch = .active ∧ n.pressHome = true ∧
      (n.press.state = .home ∨ n.press.state = .claiming) ∧
      (h.phase = .deferred → ∀ a, h.acceptance = some a →
        if s.node.cards.isRevoked a.card = true then
          n.hatch.phase = .idle ∧ n.hatch.panel = some ⟨.refusal 11, some (now' + 4000000)⟩
        else n.hatch.phase = .window ∧ n.hatch.window = some (now' + 10000000)) ∧
      (h.station = .outOfService →
        n.hatch.station = if h.conditionsMet = true ∨ others then (if h.service.isSome then .service else .ready)
          else .starting) ∧
      (h.station ≠ .outOfService → Node.StartsWhen others s.node n) ∧
      Node.RaisesCallWhen (h.station ≠ .ready) s.node n ∧
      n.tally = s.node.tally ∧ n.cards = s.node.cards ∧ n.store = s.node.store
    let uncounted (n : Node) : Prop := n.press.deposits = p.deposits ∧ n.press.claims = p.claims ∧
      n.log.accounting = s.node.log.accounting ∧ n.log.due = s.node.log.due ∧
      (∀ x ∈ n.line.queue, x.telegram.kind = .pressRelease → x ∈ s.node.line.queue) ∧
      n.sounding = s.node.sounding.triedAt now' (h.hatch = .closed ∧ h.lift = .seated) reading
    (s.node.control.phase = .running → p.state = .reversing →
      ∃ n : Node, exec (.homeSwitchActive dt reading) s = .next ⟨n, s.pending⟩ ∧ atHome n ∧
        ((p.kind = .normal ∨ p.kind = .interrupted) → n.press.state = .home ∧ n.press.deposits = 0 ∧
          n.press.claim = .absent ∧ n.press.claims = p.claims.filter (fun x => x.address != s.node.ownAddress) ∧
          (s.node.line.queue.length ≤ 4 → ∃ x ∈ n.line.queue, x.owner = .pressUnit ∧
            x.telegram = s.node.telegram .pressRelease 0 [BitVec.ofNat 8 s.node.control.settings.island]) ∧
          n.log.accounting = { s.node.log.accounting with
            pressCycles := min 65535 (s.node.log.accounting.pressCycles + 1) } ∧
          n.log.due = true ∧
          n.sounding = (if s.node.sounding.phase = .stopped then s.node.sounding
            else s.node.sounding.armedFor (now' + 5000000) false false)) ∧
        ((p.kind = .homing ∨ p.kind = .recovery) → uncounted n)) ∧
    (p.state ≠ .reversing →
      exec (.homeSwitchActive dt reading) s = .next ⟨{ s.node with now := now', press := read true }, s.pending⟩) ∧
    (p.homeSwitch = .unsettled → p.state = .reversing → p.kind = .homing → p.drive = none →
      (s.node.control.phase = .running →
        ∃ n : Node, exec (.homeSwitchSettled dt true reading) s = .next ⟨n, s.pending⟩ ∧ atHome n ∧ uncounted n) ∧
      ∃ m : Node, exec (.homeSwitchSettled dt false reading) s = .next ⟨m, s.pending⟩ ∧ m.press.homeSwitch = .inactive ∧
        ((∃ t, p.homingFrom = some t ∧ t ≤ now') → homing m) ∧
        (¬ (∃ t, p.homingFrom = some t ∧ t ≤ now') → m = { s.node with now := now', press := read false })) ∧
    (∀ isActive : Bool,
      (p.homeSwitch = .unsettled → p.state ≠ .reversing ∨ p.kind ≠ .homing ∨ p.drive ≠ none →
        exec (.homeSwitchSettled dt isActive reading) s = .next
          ⟨{ s.node with now := now', press := read isActive }, s.pending⟩) ∧
      (p.homeSwitch ≠ .unsettled →
        exec (.homeSwitchSettled dt isActive reading) s = .next ⟨{ s.node with now := now' }, s.pending⟩)) ∧
    (∀ t, p.homingFrom = some t → p.state = .reversing → p.kind = .homing → p.drive = none →
      p.homeSwitch = .inactive →
      ∃ n : Node, exec (.homingDriveStart dt) s = .next ⟨n, s.pending⟩ ∧ n.now = max now' t ∧ homing n) ∧
    ∀ isActive : Bool,
      (p.homeSwitch = .unsettled ∨ p.state = .reversing ∧ isActive = true →
        exec (.homeSwitchChange dt isActive) s = .next ⟨{ s.node with now := now' }, s.pending⟩) ∧
      (p.homeSwitch ≠ .unsettled → p.state ≠ .stopped → ¬ (p.state = .reversing ∧ isActive = true) →
        exec (.homeSwitchChange dt isActive) s = .next
          ⟨{ s.node with now := now', press := read isActive }, s.pending⟩) ∧
      (p.homeSwitch ≠ .unsettled → p.state = .stopped →
        ∃ n : Node, exec (.homeSwitchChange dt isActive) s = .next ⟨n, s.pending⟩ ∧
          n.pressHome = isActive ∧ n.press = read isActive ∧
          (isActive = false → h.phase = .window → n.hatch.phase = .idle ∧ n.hatch.window = none ∧ n.hatch.lock = .off ∧
            n.hatch.acceptance = none) ∧
          (isActive = true ∨ h.phase ≠ .window → n.hatch = h) ∧
          n.log = s.node.log ∧ n.line = s.node.line ∧ n.cards = s.node.cards ∧ n.store = s.node.store)

/-- A hatch that opens, or a lift, at the press (R123, R125): in FORWARD the drive ends and the dwell is 250 ms; in DWELL the
reverse drive starts 250 ms after the end of forward drive, at once if that has passed; a reverse of kind NORMAL pauses with
its 25 s count standing still; nothing else is stopped. With the hatch closed and the insert seated again the paused drive
starts anew at 30%. A stroke that still waits in FORWARD for its drive is interrupted alike, 250 ms from then, and a second
interruption in its dwell measures the 250 ms from the end of the drive before: both are the model's choice (log entry 42). -/
def Obligations.OpeningInterruptsThePress : Prop :=
  ∀ (s : State) (dt : Nat) (reading : Option Int), s.node.StationRuns → s.node.control.settings.pressFitted = true →
    let now' := s.node.now + dt
    let p := s.node.press
    let reverseDrive : Option RunningDrive := some ⟨.reverse, 30, now', now' + 100000⟩
    let stopped (q : Press) : Prop :=
      (p.state = .forward → q = { p with
        state := .dwell, kind := .interrupted, drive := none, forwardDue := none, dwellEnds := some (now' + 250000)
        offSince := if p.drive.isSome then now' else p.offSince }) ∧
      (p.state = .dwell → q =
        if p.offSince + 250000 ≤ now' then
          { p with state := .reversing, kind := .interrupted, drive := reverseDrive, lastDirection := some .reverse,
                   forwardDue := none, paused := false, dwellEnds := none, reverseUsed := 0 }
        else { p with kind := .interrupted, dwellEnds := some (p.offSince + 250000) }) ∧
      (p.state = .reversing → p.kind = .normal → p.paused = false →
        ∀ d, p.drive = some d → d.direction = .reverse → q = { p with
          paused := true, drive := none, forwardDue := none, offSince := now'
          reverseUsed := p.reverseUsed + (now' - d.began) }) ∧
      (p.state = .reversing → p.kind ≠ .normal → q = p)
    (s.node.hatch.hatch = .closed →
      ∃ n : Node, exec (.hatchOpen dt) s = .next ⟨n, s.pending⟩ ∧ stopped n.press) ∧
    (s.node.hatch.lift = .seated → s.node.hatch.phase ≠ .deposit →
      ∃ n : Node, exec (.lift dt) s = .next ⟨n, s.pending⟩ ∧ stopped n.press) ∧
    (p.state = .reversing → p.paused = true → s.node.hatch.phase ≠ .deposit →
      let resumed := { p with
        drive := reverseDrive, lastDirection := some .reverse, forwardDue := none, paused := false }
      (s.node.hatch.hatch = .opened → s.node.hatch.lift = .seated →
        ∃ n : Node, exec (.hatchClosed dt reading) s = .next ⟨n, s.pending⟩ ∧ n.press = resumed) ∧
      (s.node.hatch.lift = .lifted → s.node.hatch.hatch = .closed →
        ∃ n : Node, exec (.seat dt reading) s = .next ⟨n, s.pending⟩ ∧ n.press = resumed))

/-- The two laws of R115 and R120 over every command: the press leaves for FORWARD only when its own claim has been sent
with fewer other entries than the press limit and nothing going on at the hatch; and a drive starts only from rest, against
the direction of the last one no earlier than 250 ms after it. -/
def Obligations.PressStartsUnderAGrantAndFromRest : Prop :=
  ∀ (c : Instr) (s : State) (n : Node), exec c s = .next ⟨n, s.pending⟩ →
    (s.node.press.state ≠ .forward → n.press.state = .forward →
      (∃ dt, c = .transmissionSent dt false) ∧ s.node.press.state = .claiming ∧ s.node.line.transmitter = .sending ∧
      (∃ e, s.node.line.queue.find? (·.sending) = some e ∧ e.owner = .pressUnit ∧ e.telegram.kind = .pressClaim) ∧
      (enterClaim s.node.ownAddress 0 s.node.press.claims).length - 1 < s.node.control.settings.pressLimit ∧
      s.node.hatch.phase = .idle ∧ s.node.hatch.hatch = .closed ∧ s.node.hatch.lift = .seated) ∧
    (s.node.DriveLaw → s.node.press.drive.map (·.direction) ≠ n.press.drive.map (·.direction) →
      ∀ d, n.press.drive = some d → s.node.press.drive = none ∧
        (s.node.press.lastDirection ≠ none → s.node.press.lastDirection ≠ some d.direction →
          s.node.press.offSince + 250000 ≤ n.now))

/-! ### The street line (07) and the layouts (12) -/

/-- LINE_IDLE, RECEPTION_BEGINS and DEFER_WAIT_END, in both roles (R130, R132 to R137, R139, R140, R146, R150): a line that
falls idle in a reception ends it incomplete, which counts a check failure unless the polarity is UNDETECTED. On an idle line
with the polarity decided the first waiting entry is taken, with a wait of class × 4 + s slots of 1 ms, s drawn from 0 to 3,
and after n collisions class × 4 + r more, r drawn below 2 to the least of n and 4. Taking it on a line that was idle before,
with the wait counted from the command, is the model's choice (log entry 11). The first character heard after an idle line
gives the wait up and begins a reception; another begins none. A wait that runs out puts the candidate in transmission, and
its characters are driven on the line, inverted when that is the polarity. If the candidate has left the queue, displaced, or
replaced by a newer FILL NOTICE, which takes a waiting one's place with its age and collision count (R139), nothing is sent
and the queue is as it was; that is read from R135, R138, R139 and R150 by inference (log entry 12). -/
def Obligations.CandidateDefersThenSends : Prop :=
  (∀ n : Node, n.line.transmitter ≠ .sending → n.lineOutput = none) ∧
  (∀ (n : Node) (owner : Owner) (t : Telegram), n.control.phase ≠ .safe → t.kind = .fillNotice →
    (∃ e ∈ n.line.queue, e.telegram.kind = .fillNotice ∧ e.sending = false) →
    n.offerOnly owner t = { n with line := { n.line with
      queue := n.line.queue.map (fun e =>
        if e.telegram.kind = .fillNotice ∧ e.sending = false then { e with telegram := t } else e) } }) ∧
  ∀ (s : State) (dt : Nat), s.node.live = true → s.node.control.phase = .running →
    let now' := s.node.now + dt
    let l := s.node.line
    let idle : Line := { l with
      receiver := .listening
      counters := if l.receiver = .receiving ∧ l.polarity ≠ .undetected then
          { l.counters with checkFailures := min 65535 (l.counters.checkFailures + 1) }
        else l.counters }
    (l.transmitter = .idle →
      (∀ e, l.queue.find? (fun e => !e.sending) = some e → l.polarity ≠ .undetected →
        let r1 := randomStep l.random
        let r2 := randomStep r1
        let slots := e.cls * 4 + r1.toNat % 4
        exec (.lineIdle dt) s = .next
          ⟨{ s.node with
              now := now'
              line := { idle with
                random := if e.collisions = 0 then r1 else r2
                transmitter := .deferring e.age (now' + 1000 *
                  (if e.collisions = 0 then slots else slots + e.cls * 4 + r2.toNat % 2 ^ min e.collisions 4))
                  e.telegram } },
            s.pending⟩) ∧
      ((l.polarity = .undetected ∨ l.queue.find? (fun e => !e.sending) = none) →
        exec (.lineIdle dt) s = .next ⟨{ s.node with now := now', line := idle }, s.pending⟩)) ∧
    (∀ age ends taken, l.transmitter = .deferring age ends taken →
      exec (.lineIdle dt) s = .next ⟨{ s.node with now := now', line := idle }, s.pending⟩) ∧
    (l.transmitter = .sending →
      exec (.lineIdle dt) s = .next ⟨{ s.node with now := now' }, s.pending⟩) ∧
    (l.transmitter ≠ .sending → l.receiver = .listening →
      exec (.receptionBegins dt) s = .next
        ⟨{ s.node with
            now := now'
            line := { l with receiver := .receiving, transmitter := .idle } }, s.pending⟩) ∧
    (l.transmitter = .sending ∨ l.receiver ≠ .listening →
      exec (.receptionBegins dt) s = .next ⟨{ s.node with now := now' }, s.pending⟩) ∧
    ∀ age ends taken, l.transmitter = .deferring age ends taken →
      let begun := { l with
        transmitter := .sending
        queue := l.queue.map (fun e => if e.age = age then { e with sending := true } else e) }
      let candidate := l.queue.find? (fun e => e.age == age && !e.sending)
      (∀ e, candidate = some e → e.telegram = taken →
        exec (.deferWaitEnd dt) s = .next ⟨{ s.node with now := max now' ends, line := begun }, s.pending⟩ ∧
        ((∀ x ∈ l.queue, x.sending = false) →
          Node.lineOutput { s.node with now := max now' ends, line := begun } =
            some ⟨taken.chars, l.polarity == .inverted⟩)) ∧
      ((∀ e, candidate = some e → e.telegram ≠ taken) →
        exec (.deferWaitEnd dt) s = .next
          ⟨{ s.node with now := max now' ends, line := { l with transmitter := .idle } }, s.pending⟩)

/-- COLLISION and TRANSMISSION_SENT, in both roles (R136, R137, R139 to R141): a collided entry waits again in its place with
one collision more; at the eighth it is dropped and counted, and its owner told: a dropped claim returns the press to HOME
with a retry wait. A FILL NOTICE that collides while a newer one waits is removed uncounted; that the newer one keeps its own
age and collision count is read from R139 by inference (log entry 13). A sent entry leaves the queue; its owner may build its
next telegram: after a HARVEST ANSWER or a part of a STATUS ANSWER, sent or dropped, the next one may be built or the harvest
or answer is done, and a relay's request begins its 5 s when sent and is answered NO ANSWER when dropped (R180). The place
that an entry frees goes to the oldest waiting class-3 offer, built as it enters, before the owner is told (log entry 26). An
offer to a full queue: of class 0 or 1, the newest waiting entry of class 2 or 3 is displaced, counted and its owner told;
with none, or an offer of class 2, the offer is refused, counted and its owner told at once; one of class 3 waits with its
producer behind those that wait, uncounted. -/
def Obligations.EntriesLeaveWithTheirOutcome : Prop :=
  (∀ (n : Node) (owner : Owner) (t : Telegram), n.control.phase ≠ .safe → 6 ≤ n.line.queue.length →
    (t.kind = .fillNotice → ∀ x ∈ n.line.queue, x.telegram.kind = .fillNotice → x.sending = true) →
    let cls := t.kind.accessClass
    let counted : LineCounters := { n.line.counters with queueDrops := min 65535 (n.line.counters.queueDrops + 1) }
    (cls ≤ 1 → ∀ d ∈ n.line.queue, d.sending = false → 2 ≤ d.cls →
      (∀ x ∈ n.line.queue, x.sending = false → 2 ≤ x.cls → x.age ≤ d.age) →
      (∀ x ∈ n.line.queue, x.age = d.age → x = d) →
      (n.offer owner t).2 = true ∧
      (n.offer owner t).1.line = { n.line with
        queue := insertEntry ⟨t, cls, n.line.nextAge, 0, false, owner⟩
          (n.line.queue.filter (fun x => x.age != d.age))
        nextAge := n.line.nextAge + 1
        counters := counted } ∧
      (∀ h, d.owner = .depositLog → n.log.harvest = some h →
        (h.out = some true → (n.offer owner t).1.log.harvest = none) ∧
        (h.out = some false → (n.offer owner t).1.log.harvest = some { h with out := none })) ∧
      (∀ a, d.owner = .status → n.control.answer = some a → a.out = true →
        (n.offer owner t).1.control.answer = if a.part = 1 then some ⟨a.tag, 2, false⟩ else none)) ∧
    (cls = 2 ∨ (cls ≤ 1 ∧ ∀ x ∈ n.line.queue, x.sending = false → x.cls ≤ 1) →
      n.offer owner t = ({ n with line := { n.line with counters := counted } }, false))) ∧
  (∀ (n : Node) (p : Producer), n.producing p = true → p ∉ n.line.waiting → 6 ≤ n.line.queue.length →
    n.offerClass3 p = { n with line := { n.line with waiting := n.line.waiting ++ [p] } }) ∧
  ∀ (s : State) (dt : Nat) (supplyLow : Bool) (e : QueueEntry), s.node.live = true → s.node.control.phase = .running →
    s.node.line.transmitter = .sending → s.node.line.queue.find? (·.sending) = some e →
    let now' := s.node.now + dt
    let l := s.node.line
    let others := l.queue.filter (fun x => x.age != e.age)
    let replaced := e.telegram.kind = .fillNotice ∧ ∃ x ∈ l.queue, x.telegram.kind = .fillNotice ∧ x.sending = false
    let claim := e.owner = .pressUnit ∧ e.telegram.kind = .pressClaim
    let admits (n : Node) : Prop :=
      (l.waiting = [] → n.line.queue = others ∧ n.line.waiting = []) ∧
      ∀ p rest, l.waiting = p :: rest → others.length < 6 →
        (p = .harvest → ∀ h, s.node.log.harvest = some h → h.out = none →
          n.line.waiting = rest ∧ ∃ t, t.kind = .harvestAnswer ∧
            n.line.queue = insertEntry ⟨t, 3, l.nextAge, 0, false, .depositLog⟩ others) ∧
        (p = .status → ∀ a, s.node.control.answer = some a → a.out = false →
          n.line.waiting = rest ∧ ∃ t, t.kind = .statusAnswer ∧
            n.line.queue = insertEntry ⟨t, 3, l.nextAge, 0, false, .status⟩ others)
    let told (n : Node) : Prop := l.waiting = [] →
      (e.owner ≠ .depositLog → n.log.harvest = s.node.log.harvest) ∧
      (∀ h, e.owner = .depositLog → s.node.log.harvest = some h →
        (h.out = some true → n.log.harvest = none) ∧
        (h.out = some false → n.log.harvest = some { h with out := none })) ∧
      (e.owner ≠ .status → n.control.answer = s.node.control.answer) ∧
      (∀ a, e.owner = .status → s.node.control.answer = some a → a.out = true →
        n.control.answer = if a.part = 1 then some ⟨a.tag, 2, false⟩ else none)
    let y := s.node.relay
    let asked (o : Outstanding) : Prop := e.owner = .relayRequest o.dest o.tag
    (¬ replaced → e.collisions < 7 →
      exec (.collision dt) s = .next
        ⟨{ s.node with
            now := now'
            line := { l with
              transmitter := .idle
              receiver := .receiving
              queue := l.queue.map (fun x => if x.age = e.age then
                { x with sending := false, collisions := x.collisions + 1 } else x) } }, s.pending⟩) ∧
    (replaced →
      ∃ n : Node, exec (.collision dt) s = .next ⟨n, s.pending⟩ ∧ admits n ∧ n.line.transmitter = .idle ∧
        n.line.receiver = .receiving ∧ n.line.counters = l.counters ∧ n.press = s.node.press ∧ n.hatch = s.node.hatch ∧
        n.cards = s.node.cards ∧ n.store = s.node.store ∧ n.tally = s.node.tally) ∧
    (¬ replaced → 7 ≤ e.collisions →
      ∃ n : Node, exec (.collision dt) s = .next ⟨n, s.pending⟩ ∧ admits n ∧ n.line.transmitter = .idle ∧
        n.line.counters = { l.counters with collisionDrops := min 65535 (l.counters.collisionDrops + 1) } ∧ told n ∧
        (∀ o, asked o → y.outstanding.find? (fun x => x.dest == o.dest && x.tag == o.tag) = some o →
          n.relay.outstanding = y.outstanding.filter (fun x => !(x.dest == o.dest && x.tag == o.tag)) ∧
          n.relay.noAnswers = min 65535 (y.noAnswers + 1) ∧
          (y.lineToDepot.length < 16 → n.relay.lineToDepot = y.lineToDepot ++ [s.node.telegram .noAnswer 250
            [BitVec.ofNat 8 o.dest, BitVec.ofNat 8 o.tag, BitVec.ofNat 8 o.kind.code]]) ∧
          (16 ≤ y.lineToDepot.length → n.relay.drops = min 65535 (y.drops + 1))) ∧
        ((∀ o ∈ y.outstanding, ¬ asked o) → n.relay = y) ∧
        n.hatch = s.node.hatch ∧ n.cards = s.node.cards ∧ n.store = s.node.store ∧ n.tally = s.node.tally ∧
        (¬ claim → n.press = s.node.press) ∧
        (claim → s.node.press.state = .claiming →
          n.press.state = .home ∧ n.press.claim = .absent ∧ n.press.claims = s.node.press.claims ∧
            ∃ t, n.press.retry = some t ∧ now' + 20000000 ≤ t ∧ t ≤ now' + 60000000)) ∧
    (¬ claim →
      ∃ n : Node, exec (.transmissionSent dt supplyLow) s = .next ⟨n, s.pending⟩ ∧ n.now = now' ∧ admits n ∧
        n.line.transmitter = .idle ∧ n.line.receiver = .disregarding ∧ n.line.counters = l.counters ∧
        n.line.buffer = l.buffer ∧
        told n ∧
        (∀ o, asked o → n.relay = { y with outstanding := y.outstanding.map (fun x =>
          if x.dest = o.dest ∧ x.tag = o.tag then { x with timer := some (now' + 5000000) } else x) }) ∧
        ((∀ o ∈ y.outstanding, ¬ asked o) → n.relay = y) ∧
        n.hatch = s.node.hatch ∧ n.press = s.node.press ∧ n.cards = s.node.cards ∧ n.store = s.node.store ∧
        n.log.held = s.node.log.held ∧ n.tally = s.node.tally)

/-- RECEPTION_END, SILENCE_TIMER_EXPIRY and CORRECTION_TIMER_EXPIRY of a running station (R133, R134, R142 to R146). In the
sense adopted, NORMAL or INVERTED, the first check that fails drops the telegram and raises its one counter; a telegram of
another node with the own address sets ADDRESS CLASH; one that concerns the station enters the receive buffer, or is an
overrun. While UNDETECTED the first good reception fixes the polarity and is judged like any other, one that is good in
neither sense is not counted, and 5 s of silence make the polarity PROVISIONAL; in PROVISIONAL a normal reception fixes it
NORMAL, as 60 s do, a first inverted-only one is dropped, a second fixes it INVERTED, and one that fails in both senses is
counted. One that is good in both senses, which R133 says does not occur, is taken as NORMAL, the model's choice (log entry
28). A call that is PENDING is offered when the polarity is fixed (R162). -/
def Obligations.ReceptionsAreCheckedAndKept : Prop :=
  ∀ (s : State) (dt : Nat) (normal inverted : List HeardChar), s.node.StationRuns →
    s.node.line.transmitter ≠ .sending → s.node.line.receiver ≠ .disregarding →
    let now' := s.node.now + dt
    let l := s.node.line
    let heard := { l with receiver := .disregarding, transmitter := .idle }
    let c := l.counters
    let failed : Line := { heard with counters := { c with checkFailures := min 65535 (c.checkFailures + 1) } }
    let judged (line : Line) (bytes : List Byte) : Line :=
      match readTelegram bytes with
      | none => { line with counters := { c with unknownKinds := min 65535 (c.unknownKinds + 1) } }
      | some t =>
        if s.node.control.settings.address = some t.sender then
          { line with clash := true, counters := { c with addressClashes := min 65535 (c.addressClashes + 1) } }
        else if concernsStation s.node.ownAddress t = false then line
        else if l.buffer.length < 4 then { line with buffer := l.buffer ++ [⟨t, now'⟩] }
        else { line with counters := { c with overruns := min 65535 (c.overruns + 1) } }
    let leaves (line : Line) : Prop :=
      exec (.receptionEnd dt normal inverted) s = .next ⟨{ s.node with now := now', line := line }, s.pending⟩
    let adopted (polarity : Polarity) (bytes : List Byte) : Prop :=
      let line := judged { heard with
        polarity := polarity, silence := none, correction := none, invertedOnly := 0 } bytes
      (s.node.call.state ≠ .pending → leaves line) ∧
      (s.node.call.state = .pending →
        ∃ n : Node, exec (.receptionEnd dt normal inverted) s = .next ⟨n, s.pending⟩ ∧ n.call.state = .awaiting ∧
          n.line.polarity = polarity ∧ n.line.silence = none ∧ n.line.correction = none ∧
          n.line.buffer = line.buffer ∧ n.line.clash = line.clash ∧
          { n.line.counters with queueDrops := c.queueDrops } = line.counters)
    ((l.polarity = .normal →
        (goodReception normal = none → leaves failed) ∧
        ∀ bytes, goodReception normal = some bytes → leaves (judged heard bytes)) ∧
      (l.polarity = .inverted →
        (goodReception inverted = none → leaves failed) ∧
        ∀ bytes, goodReception inverted = some bytes → leaves (judged heard bytes))) ∧
    (l.polarity = .undetected →
      (goodReception normal = none → goodReception inverted = none → leaves heard) ∧
      (∀ bytes, goodReception normal = some bytes → adopted .normal bytes) ∧
      (goodReception normal = none → ∀ bytes, goodReception inverted = some bytes → adopted .inverted bytes)) ∧
    (l.polarity = .provisional →
      (goodReception normal = none → goodReception inverted = none → leaves failed) ∧
      (∀ bytes, goodReception normal = some bytes → adopted .normal bytes) ∧
      (goodReception normal = none → ∀ bytes, goodReception inverted = some bytes →
        (l.invertedOnly = 0 → leaves { heard with invertedOnly := 1 }) ∧
        (l.invertedOnly ≠ 0 → adopted .inverted bytes))) ∧
    (∀ t, l.polarity = .undetected → l.silence = some t →
      ∃ n : Node, exec (.silenceTimerExpiry dt) s = .next ⟨n, s.pending⟩ ∧ n.now = max now' t ∧
        n.line.polarity = .provisional ∧ n.line.correction = some (n.now + 60000000) ∧ n.line.silence = none ∧
        n.line.buffer = l.buffer) ∧
    (∀ t, l.polarity = .provisional → l.correction = some t →
      ∃ n : Node, exec (.correctionTimerExpiry dt) s = .next ⟨n, s.pending⟩ ∧ n.now = max now' t ∧
        n.line.polarity = .normal ∧ n.line.correction = none ∧ n.line.buffer = l.buffer)

/-- A telegram with a kind of the line, an allowed payload length and allowed addresses reads back from its characters
(R130, R142, R192): they pass the check value, and every header field and payload byte is as it was. -/
def Obligations.TelegramsReadBack : Prop :=
  ∀ t : Telegram, t.kind ≠ .noAnswer → t.kind.lengthAllowed t.payload.length = true → 1 ≤ t.sender → t.sender ≤ 239 →
    t.island < 256 → (t.dest ≤ 239 ∨ t.dest = 250) →
    goodReception (t.chars.map (fun b => ⟨b, true⟩)) = some t.chars ∧ readTelegram t.chars = some t

/-- The rows of the store read back (R27, R35, R87, R91, R92, R193): a row of fifteen content bytes passes its check; both
slots of a card row, both positions of a revocation row, a log record of every kind with its sequence number and marker, and
the two accounting rows give what they were written from. -/
def Obligations.StoredRowsReadBack : Prop :=
  (∀ content : List Byte, content.length = 15 → rowCheckPasses (withRowCheck content) = true) ∧
    (∀ r q : CardRecord,
      (cardRow (some r) (some q)).length = 16 ∧
      readSlot ((cardRow (some r) (some q)).take 7) = .occupied r ∧
      readSlot (((cardRow (some r) (some q)).drop 7).take 7) = .occupied q ∧
      readSlot ((cardRow none (some q)).take 7) = .free ∧ readSlot (((cardRow (some r) none).drop 7).take 7) = .free) ∧
    (∀ a b : Option CardNumber,
      (revocationRow a b).length = 16 ∧ readPosition ((revocationRow a b).take 5) = a ∧
      readPosition (((revocationRow a b).drop 5).take 5) = b) ∧
    (∀ (seq : Sequence) (body : RecordBody) (day : Nat) (time fill : Option Nat) (fraction : Fraction) (confirmed : Bool),
      (match body with
        | .deposit _ charge _ _ _ => charge ≤ 255
        | .dayClose total count overflow => total ≤ 16777215 ∧ count ≤ 65535 ∧ overflow ≤ 65535
        | .overflowSummary count charge lost => count ≤ 65535 ∧ charge ≤ 16777215 ∧ lost ≤ 65535
        | .forced | .emptying _ | .unannouncedEmpty | .restart _ => True
        | .overflowDeposit => False) →
      day ≤ 65535 → (∀ t, time = some t → t ≤ 43199) → (∀ f, fill = some f → f ≤ 1000) →
      let r : LogRecord := ⟨seq, ⟨body, day, time, fraction, fill⟩, confirmed⟩
      (logRow r).length = 16 ∧ readLogRow (seq.toNat % 1024) (logRow r) = some r) ∧
    ∀ a b : Accounting, a.day ≤ 65535 → a.total ≤ 16777215 → a.count ≤ 65535 → a.overflowCount ≤ 65535 →
      a.overflowCharge ≤ 16777215 → a.hatchCycles ≤ 16777215 → a.pressCycles ≤ 65535 →
      (accountingRow a).length = 16 ∧ (lifetimeRow a).length = 16 ∧
      readAccountingRow (accountingRow a) (readLifetimeRow (lifetimeRow a) b) = a

/-! ### Neighbour views and redirection (08) -/

/-- The neighbour unit (R148 to R150, R152, R153, R156, R157). In ACTIVE the comparison that follows a change offers a FILL
NOTICE when the present content calls for one by the last notice, and does nothing else; so after every step the present
content does not call for another. NOTICE_TIMER_EXPIRY offers a FILL NOTICE with the present content, which becomes the last
notice, and restarts the 60 min. That bits 6 and 7 of the flags byte of these notices are 0 is the model's choice (log entry
52). A FILL_NOTICE that fails its check changes nothing; one that passes overwrites the sender's
view, makes a new one, or takes the place of the one heard longest ago. A REDIRECT_NOTICE of the own fraction puts its card
last in the list of at most 16. VIEW_ENTRY_EXPIRY and EXPECT_ENTRY_EXPIRY remove an entry after 6 h and after 15 min. -/
def Obligations.NoticesFillTheTables : Prop :=
  (∀ (s : State) (dt : Nat), s.node.StationRuns →
    let now' := s.node.now + dt
    let u := s.node.neighbour
    let c := s.node.control.settings
    let heard (v : Neighbour) : Node := { s.node with
      now := now'
      line := { s.node.line with buffer := s.node.line.buffer.eraseP (fun r => r.telegram.kind.taker == .neighbour) }
      neighbour := v }
    (∀ t, u.phase = .active → u.timer = some t →
      let notice := s.node.presentNotice
      ∃ n : Node, exec (.noticeTimerExpiry dt) s = .next ⟨n, s.pending⟩ ∧ n.now = max now' t ∧
        n.neighbour = { u with
          last := some s.node.noticeContent, lastAt := some n.now, timer := some (n.now + 3600000000) } ∧
        (∀ e ∈ n.line.queue, e.telegram.kind = .fillNotice → e.sending = false → e.telegram = notice) ∧
        (s.node.line.queue.length < 6 → ∃ e ∈ n.line.queue, e.telegram = notice ∧ e.sending = false) ∧
        n.sounding = s.node.sounding ∧ n.hatch = s.node.hatch ∧ n.press = s.node.press ∧ n.call = s.node.call ∧
        n.cards = s.node.cards ∧ n.store = s.node.store ∧ n.log = s.node.log ∧ n.tally = s.node.tally) ∧
    (∀ r : Received, s.node.line.buffer.find? (fun r => r.telegram.kind.taker == .neighbour) = some r →
      let p := r.telegram.payload
      let fill := field p 3 2
      let flags := field p 5 1
      let card : CardNumber := BitVec.ofNat 32 (field p 0 4)
      let others := u.expected.filter (fun e => e.card != card)
      (r.telegram.kind = .fillNotice →
        (4 < field p 0 1 ∨ 4095 < field p 1 2 ∨ (1000 < fill ∧ fill ≠ 65535) ∨ 5 < field p 6 1 →
          exec (.fillNotice dt) s = .next ⟨heard u, s.pending⟩) ∧
        ∀ fraction : Fraction, Fraction.ofCode (field p 0 1) = some fraction → field p 1 2 ≤ 4095 →
          (fill ≤ 1000 ∨ fill = 65535) → field p 6 1 ≤ 5 →
          let v : View := ⟨r.telegram.sender, r.telegram.island, fraction, field p 1 2,
            if fill = 65535 then none else some fill, flags % 2 == 1, flags / 2 % 2 == 1, flags / 8 % 2 == 1,
            flags / 16 % 2 == 1, r.endedAt⟩
          ∃ views : List View, exec (.fillNotice dt) s = .next ⟨heard { u with views := views }, s.pending⟩ ∧
            ((∃ w ∈ u.views, w.address = v.address) →
              views = u.views.map (fun w => if w.address = v.address then v else w)) ∧
            ((∀ w ∈ u.views, w.address ≠ v.address) → u.views.length < 32 → views = u.views ++ [v]) ∧
            ((∀ w ∈ u.views, w.address ≠ v.address) → 32 ≤ u.views.length →
              ∃ x ∈ u.views, (∀ y ∈ u.views, x.heardAt ≤ y.heardAt) ∧
                views = u.views.filter (fun w => w.address != x.address) ++ [v])) ∧
      (r.telegram.kind = .redirectNotice → u.expected.length ≤ 16 →
        exec (.redirectNotice dt) s = .next
          ⟨heard { u with
            expected :=
              if field p 4 1 = c.fraction.code then
                (if others.length < 16 then others else others.drop 1) ++ [⟨card, r.endedAt⟩]
              else u.expected }, s.pending⟩)) ∧
    (∀ v : View, earliestView u.views = some v →
      exec (.viewEntryExpiry dt) s = .next
        ⟨{ s.node with
            now := max now' (v.heardAt + 21600000000)
            neighbour := { u with views := u.views.filter (fun w => w.address != v.address) } }, s.pending⟩) ∧
    (∀ (e : Expected) (rest : List Expected), u.expected = e :: rest →
      exec (.expectEntryExpiry dt) s = .next
        ⟨{ s.node with
            now := max now' (e.enteredAt + 900000000)
            neighbour := { u with expected := rest } }, s.pending⟩)) ∧
  (∀ (views : List View) (v : View), earliestView views = some v →
    v ∈ views ∧ ∀ w ∈ views, v.heardAt ≤ w.heardAt) ∧
  (∀ n : Node, n.neighbour.phase = .active → n.control.phase ≠ .safe →
    ((∃ last, n.neighbour.last = some last ∧ ¬ n.noticeContent.CallsForNotice last) → n.noticeCheck = n) ∧
    ((∀ last, n.neighbour.last = some last → n.noticeContent.CallsForNotice last) →
      n.noticeCheck.neighbour = { n.neighbour with
        last := some n.noticeContent, lastAt := some n.now, timer := some (n.now + 3600000000) } ∧
      (∀ e ∈ n.noticeCheck.line.queue, e.telegram.kind = .fillNotice → e.sending = false → e.telegram = n.presentNotice) ∧
      (n.line.queue.length < 6 → ∃ e ∈ n.noticeCheck.line.queue, e.telegram = n.presentNotice ∧ e.sending = false))) ∧
  ∀ s s' : State, step s = .next s' → s.node.NoticeLaw → s'.node.NoticeLaw

/-- The redirect target (R154): among the views heard less than 3 h ago, of the station's fraction, with the four flags
cleared and a known fill below 900, the one at the least distance, and at equal distance the one of the lower address; none
exactly when there is no such view. A view heard exactly 3 h ago is not fresh (R153): that the end of freshness comes before a
choice made at the same moment is the model's choice (log entry 43). The REDIRECT NOTICE for it (R155) is addressed to it
alone and carries the card number and the fraction. -/
def Obligations.RedirectTargetIsTheNearestFresh : Prop :=
  ∀ n : Node,
    let c := n.control.settings
    let candidate (v : View) : Prop := v ∈ n.neighbour.views ∧ n.now - v.heardAt < 10800000000 ∧
      v.fraction = c.fraction ∧ v.full = false ∧ v.outOfService = false ∧ v.sensorFault = false ∧
      v.hatchStuck = false ∧ ∃ f, v.fill = some f ∧ f < 900
    let distance (v : View) : Nat := (v.position - c.position) + (c.position - v.position)
    (n.redirectTarget = none ↔ ∀ v, ¬ candidate v) ∧
    (∀ v, n.redirectTarget = some v →
      candidate v ∧ ∀ w, candidate w → distance v < distance w ∨ (distance v = distance w ∧ v.address ≤ w.address)) ∧
    ∀ (card : CardNumber) (v : View), n.control.phase ≠ .safe → n.line.queue.length < 6 →
      n.offerRedirect card v = { n with line := { n.line with
        queue := insertEntry
          ⟨n.telegram .redirectNotice v.address (bytesOf 4 card.toNat ++ [BitVec.ofNat 8 c.fraction.code]), 2,
            n.line.nextAge, 0, false, .neighbourUnit⟩ n.line.queue
        nextAge := n.line.nextAge + 1 } }

/-! ### Collection calls (09) -/

/-- The timers of an open call (R162, R163, R167). RESEND_TIMER_EXPIRY offers the telegram again with the next send count up
to six, and after the sixth the call is LAPSED for 2 h; LAPSE_REST_EXPIRY brings it back to PENDING with its tag and lead
reference, and it is offered with send count 1 unless the polarity is UNDETECTED; HOLD_OFF_EXPIRY ends the call. -/
def Obligations.CallTimersRunOut : Prop :=
  ∀ (s : State) (dt g : Nat) (t : Moment), s.node.StationRuns → s.node.call.tag = some g →
    let c := s.node.call
    let now' := max (s.node.now + dt) t
    let place : List Byte := [BitVec.ofNat 8 s.node.control.settings.fraction.code] ++
      bytesOf 2 s.node.control.settings.position ++ bytesOf 2 (s.node.sounding.fill.getD 65535)
    let telegram (k : Nat) : Telegram :=
      match c.lead with
      | none => s.node.telegram .call 250 ([BitVec.ofNat 8 g] ++ place ++ [BitVec.ofNat 8 k])
      | some l =>
        s.node.telegram .callJoin 250 ([BitVec.ofNat 8 g, BitVec.ofNat 8 l.address, BitVec.ofNat 8 l.tag] ++ place)
    let others (n : Node) : Prop := n.now = now' ∧ n.cards = s.node.cards ∧ n.store = s.node.store ∧
      n.tally = s.node.tally ∧ n.hatch = s.node.hatch ∧ n.sounding = s.node.sounding ∧ n.press = s.node.press ∧
      n.log.held = s.node.log.held ∧ n.log.appendList = s.node.log.appendList ∧ n.clock = s.node.clock
    (∀ k, c.state = .awaiting → c.resend = some t → c.sends = some k →
      ∃ n : Node, exec (.resendTimerExpiry dt) s = .next ⟨n, s.pending⟩ ∧ others n ∧
        (k < 6 → n.call = { c with sends := some (k + 1), resend := some (now' + 600000000) } ∧
          (s.node.line.queue.length < 6 → ∃ e ∈ n.line.queue, e.telegram = telegram (k + 1) ∧ e.cls = 1)) ∧
        (6 ≤ k → n.call = { c with state := .lapsed, resend := none, rest := some (now' + 7200000000) })) ∧
    (c.state = .lapsed → c.rest = some t →
      ∃ n : Node, exec (.lapseRestExpiry dt) s = .next ⟨n, s.pending⟩ ∧ others n ∧
        (s.node.line.polarity = .undetected → n.call = { c with state := .pending, sends := none, rest := none }) ∧
        (s.node.line.polarity ≠ .undetected →
          n.call = { c with state := .awaiting, sends := some 1, rest := none, resend := some (now' + 600000000) } ∧
          (s.node.line.queue.length ≤ 4 → ∃ e ∈ n.line.queue, e.telegram = telegram 1 ∧ e.cls = 1))) ∧
    (c.state = .holdOff → c.rest = some t →
      ∃ n : Node, exec (.holdOffExpiry dt) s = .next ⟨n, s.pending⟩ ∧ others n ∧
        n.call = { c with
          state := .none, tag := none, sends := none, resend := none, rest := none, round := none, lead := none })

/-- CALL_ANSWER, CALL and CALL_JOIN (R160, R164 to R168). An answer for another station, of an undefined outcome or with a
round hour above 23 is discarded; one with the call's tag schedules or declines the call, a round day already past by more
than one day renewing it at once under a new tag; every other answer is stale and counted. A heard call of the own fraction,
within the join radius and with the own fill at the join threshold is joined in NONE and READY under a new tag with the lead
it names; any other is discarded. -/
def Obligations.HeardCallsAndAnswers : Prop :=
  ∀ (s : State) (dt : Nat) (r : Received), s.node.StationRuns →
    s.node.line.buffer.find? (fun r => r.telegram.kind.taker == .call) = some r →
    let now' := s.node.now + dt
    let p := r.telegram.payload
    let c := s.node.call
    let settings := s.node.control.settings
    let fresh := (c.lastTag + 1) % 64
    let sent : CallState := if s.node.line.polarity = .undetected then .pending else .awaiting
    let rest := s.node.line.buffer.eraseP (fun r => r.telegram.kind.taker == .call)
    let others (n : Node) : Prop := n.now = now' ∧ n.line.buffer = rest ∧ n.cards = s.node.cards ∧
      n.store = s.node.store ∧ n.tally = s.node.tally ∧ n.hatch = s.node.hatch ∧ n.sounding = s.node.sounding ∧
      n.press = s.node.press ∧ n.log.held = s.node.log.held ∧ n.clock = s.node.clock
    (r.telegram.kind = .callAnswer →
      let tag := field p 1 1
      let outcome := field p 2 1
      let day := field p 3 2
      let hr := field p 5 1
      let dropped := field p 0 1 ≠ s.node.ownAddress ∨ 2 ≤ outcome ∨ (outcome = 0 ∧ 24 ≤ hr)
      let taken := c.tag = some tag ∧
        (c.state = .awaiting ∨ c.state = .scheduled ∨ c.state = .lapsed ∨ c.state = .holdOff)
      ∃ n : Node, exec (.callAnswer dt) s = .next ⟨n, s.pending⟩ ∧ others n ∧
        (dropped → n.call = c) ∧
        (¬ dropped → ¬ taken → n.call = { c with stale := min 65535 (c.stale + 1) }) ∧
        (¬ dropped → taken → outcome = 0 → s.node.clock.day ≤ day + 1 →
          n.call = { c with state := .scheduled, resend := none, rest := none, round := some (day, hr) }) ∧
        (¬ dropped → taken → outcome = 0 → day + 1 < s.node.clock.day →
          n.call.state = sent ∧ n.call.tag = some fresh ∧ n.call.lastTag = fresh ∧ n.call.lead = none ∧
            n.call.round = none ∧ n.call.stale = c.stale) ∧
        (¬ dropped → taken → outcome = 1 →
          n.call = if c.state = .holdOff then c else
            { c with state := .holdOff, resend := none, rest := some (now' + 14400000000), round := none })) ∧
    let joined (command : Instr) (lead : Lead) (fraction position : Nat) (own : Prop) : Prop :=
      let joins := c.state = .none ∧ s.node.hatch.station = .ready ∧ fraction = settings.fraction.code ∧
        (position - settings.position) + (settings.position - position) ≤ settings.joinRadius ∧
        (∃ f, s.node.sounding.fill = some f ∧ settings.joinThreshold ≤ f) ∧ ¬ own
      (¬ joins → exec command s = .next
        ⟨{ s.node with now := now', line := { s.node.line with buffer := rest } }, s.pending⟩) ∧
      (joins → ∃ n : Node, exec command s = .next ⟨n, s.pending⟩ ∧ others n ∧
        n.call.state = sent ∧ n.call.tag = some fresh ∧ n.call.lastTag = fresh ∧ n.call.lead = some lead ∧
        n.call.round = none ∧ n.call.rest = none ∧ n.call.stale = c.stale ∧
        (sent = .awaiting → n.call.sends = some 1 ∧ n.call.resend = some (now' + 600000000) ∧
          (s.node.line.queue.length ≤ 4 → ∃ e ∈ n.line.queue, e.cls = 1 ∧ e.telegram = s.node.telegram .callJoin 250
            ([BitVec.ofNat 8 fresh, BitVec.ofNat 8 lead.address, BitVec.ofNat 8 lead.tag,
              BitVec.ofNat 8 settings.fraction.code] ++ bytesOf 2 settings.position ++
              bytesOf 2 (s.node.sounding.fill.getD 65535)))))
    (r.telegram.kind = .call →
      joined (.call dt) ⟨r.telegram.sender, field p 0 1⟩ (field p 1 1) (field p 2 2) False) ∧
    (r.telegram.kind = .callJoin →
      joined (.callJoin dt) ⟨field p 1 1, field p 2 1⟩ (field p 3 1) (field p 4 2) (field p 1 1 = s.node.ownAddress))

/-- The law of R160 over every command but a start and the end of the log's scan: an open call keeps its tag until it ends or
is renewed, whatever state it passes to; a call that begins, or that a missed round renews (R166), takes the tag after the
last one used, mod 64, which becomes the last tag used; no other tag is ever taken. A missed round renews a SCHEDULED call
whose round day is past by more than one day, and, at a CALL ANSWER with the call's tag, a call scheduled to such a day
(R164). Every step keeps that a call has a tag exactly while it is open, and that a relay, which has no call unit (09), and a
node whose configuration is being read have none open. -/
def Obligations.CallTagsAreTakenInOrder : Prop :=
  (∀ (c : Instr) (s : State) (n : Node), exec c s = .next ⟨n, s.pending⟩ → (∀ dt, c ≠ .logScanEnd dt) →
    (∀ dt, c ≠ .powerOn dt) → (∀ dt, c ≠ .resetPin dt) → (∀ dt, c ≠ .resetPinHeld dt) →
    (∀ dt, c ≠ .supplyFails dt) → (∀ dt, c ≠ .restart dt) →
    let a := s.node.call
    let b := n.call
    let newTag := b.lastTag = (a.lastTag + 1) % 64 ∧ b.tag = some b.lastTag
    let missed (day : Nat) : Prop := day + 1 < n.clock.day
    let renewed : Prop := (b.state = .pending ∨ b.state = .awaiting) ∧ b.lead = none ∧ b.round = none ∧
      ((a.state = .scheduled ∧ ∃ round, a.round = some round ∧ missed round.1) ∨
        (∃ dt, c = .callAnswer dt) ∧ a.state ≠ .none ∧ a.state ≠ .pending ∧
          ∃ r, s.node.line.buffer.find? (fun r => r.telegram.kind.taker == .call) = some r ∧
            r.telegram.kind = .callAnswer ∧ a.tag = some (field r.telegram.payload 1 1) ∧
            field r.telegram.payload 2 1 = 0 ∧ missed (field r.telegram.payload 3 2))
    ((b.lastTag = a.lastTag ∧ (b.tag = a.tag ∨ b.tag = none ∧ b.state = .none)) ∨
        newTag ∧ (a.state = .none ∧ b.state ≠ .none ∨ renewed)) ∧
      (a.state = .none → b.state ≠ .none → newTag) ∧
      (a.state = .scheduled ∨ a.state = .holdOff → b.state = .pending ∨ b.state = .awaiting → newTag)) ∧
  ∀ s s' : State, step s = .next s' → s.node.CallLaw → s'.node.CallLaw

/-! ### The relay (10) -/

/-- The depot port (R176, R177, R179, R183). DEPOT_FRAME: a frame whose telegram passes the checks is handled by its
destination: the relay's own TIME sets the relay clock, its own STATUS REQUEST and RESTART wait in the receive buffer, and a
telegram for the line enters the depot-to-line queue of 16 with RTS following the count; each failure raises its one counter.
A length outside 7 to 55, another end character or a missing stop bit discards the frame, and so does DEPOT_FRAME_TIMEOUT;
that such a length does so at its own character, and that the relay's own STATUS REQUEST and RESTART wait in the buffer, are
read by inference (log entries 40 and 5), and that the check value is taken over the characters before the last two, whatever
the payload length says, and that a start character without its stop bit begins no frame and is not counted, are the model's
choices (log entries 44 and 46).
DEPOT_FRAME_SEND begins the frame of the oldest telegram with CTS asserted, and DEPOT_FRAME_END takes it from the queue. -/
def Obligations.DepotPortFramesTelegrams : Prop :=
  (∀ (s : State) (dt : Nat), s.node.RelayRuns →
    let base := s.node.advance dt
    let y := s.node.relay
    let l := s.node.line
    let heard (bytes : List Byte) : List HeardChar := bytes.map (fun b => ⟨b, true⟩)
    let unknown : Node := { base with line := { l with
      counters := { l.counters with unknownKinds := min 65535 (l.counters.unknownKinds + 1) } } }
    let discarded (n : Node) : Node := { n with relay := { y with
      receiver := .hunting
      checkFailures := min 65535 (y.checkFailures + 1) } }
    let clockSet (n : Node) (t : Telegram) : Node :=
      if field t.payload 2 3 < 86400 then
        { n with relay := { n.relay with
          clock := some ⟨field t.payload 0 2, field t.payload 2 3⟩
          origination := some (base.now + 600000000) } }
      else n
    let handled (t : Telegram) : Node :=
      if t.kind.isDepotKind = false then unknown
      else if t.dest = s.node.ownAddress then
        if t.kind = .time then clockSet base t
        else if t.kind = .statusRequest ∨ t.kind = .restart then
          if l.buffer.length < 4 then { base with line := { l with buffer := l.buffer ++ [⟨t, base.now⟩] } }
          else { base with line := { l with
            counters := { l.counters with overruns := min 65535 (l.counters.overruns + 1) } } }
        else unknown
      else if y.depotToLine.length < 16 then
        let k := y.depotToLine.length + 1
        let queued : Node := { base with relay := { y with
          depotToLine := y.depotToLine ++ [t]
          rts := if 12 ≤ k then false else if k ≤ 8 then true else y.rts } }
        if t.kind = .time then clockSet queued t else queued
      else { base with relay := { y with overruns := min 65535 (y.overruns + 1) } }
    (y.receiver = .hunting →
      (∀ bytes : List Byte, 7 ≤ bytes.length → bytes.length ≤ 55 →
        exec (.depotFrame dt (heard ([165, BitVec.ofNat 8 bytes.length] ++ bytes ++ [90]))) s = .next
          ⟨if checkAgrees bytes then
              match readTelegram bytes with
              | none => unknown
              | some t => handled t
            else { base with relay := { y with checkFailures := min 65535 (y.checkFailures + 1) } }, s.pending⟩ ∧
        ∀ last : Byte, last ≠ 90 →
          exec (.depotFrame dt (heard ([165, BitVec.ofNat 8 bytes.length] ++ bytes ++ [last]))) s = .next
            ⟨discarded base, s.pending⟩) ∧
      (∀ len : Byte, (len.toNat < 7 ∨ 55 < len.toNat) →
        exec (.depotFrame dt (heard [165, len])) s = .next ⟨discarded base, s.pending⟩) ∧
      (∀ chars : List HeardChar, (∀ c ∈ chars, c.value ≠ 165 ∨ c.stop = false) →
        exec (.depotFrame dt chars) s = .next ⟨base, s.pending⟩)) ∧
    (∀ got lastAt, y.receiver = .inFrame got lastAt →
      (∀ value : Byte, base.now - lastAt ≤ 20000 →
        exec (.depotFrame dt [⟨value, false⟩]) s = .next ⟨discarded base, s.pending⟩) ∧
      exec (.depotFrameTimeout dt) s = .next
        ⟨discarded { s.node with now := max base.now (lastAt + 20001) }, s.pending⟩) ∧
    (∀ cts : Bool,
      exec (.depotFrameSend dt cts) s = .next
        ⟨{ base with relay := { y with transmitting := y.transmitting || (cts && !y.lineToDepot.isEmpty) } },
          s.pending⟩) ∧
    (y.transmitting = true →
      exec (.depotFrameEnd dt) s = .next
        ⟨{ base with relay := { y with transmitting := false, lineToDepot := y.lineToDepot.drop 1 } }, s.pending⟩)) ∧
  ∀ (n : Node) (t : Telegram) (rest : List Telegram), n.relay.transmitting = true → n.relay.lineToDepot = t :: rest →
    n.depotOutput = some ([165, BitVec.ofNat 8 t.chars.length] ++ t.chars ++ [90])

/-- The relay between line and depot (R133, R134, R142, R143, R178 to R182). DEPOT_TO_LINE_OFFER passes the oldest depot
telegram on with the relay as its sender, when the line can take it; a request makes the newest of at most 8 outstanding
entries, in place of its own older one or of the oldest, which is answered NO ANSWER. A reception is judged in the sense of
the polarity, which the relay finds as a station does: a failing one, one of unknown kind and one with the relay's own address
are counted and dropped; one good in both senses, which R133 says does not occur, is taken as NORMAL while
UNDETECTED, the model's choice (log entry 28). A line telegram for RELAY or for the relay's own address is
queued for the depot, and an answer ends or restarts its outstanding entry; with 16 queued it is dropped, counted, and matches
nothing. Of those for its own address a TIME sets the relay clock, and a STATUS REQUEST or RESTART waits in the receive
buffer, read by inference (log entry 5). A request that has been sent begins its 5 s, and one dropped at the eighth collision
is answered NO ANSWER. ANSWER_TIMER_EXPIRY answers NO ANSWER. RELAY_CLOCK_SECOND advances a SET clock, and
ORIGINATION_TIMER_EXPIRY offers its TIME to ALL every 10 min. -/
def Obligations.RelayForwardsAndWatchesRequests : Prop :=
  (∀ (s : State) (dt : Nat), s.node.RelayRuns →
    let now' := s.node.now + dt
    let y := s.node.relay
    let l := s.node.line
    let noAnswer (o : Outstanding) : Telegram := s.node.telegram .noAnswer 250
      [BitVec.ofNat 8 o.dest, BitVec.ofNat 8 o.tag, BitVec.ofNat 8 o.kind.code]
    let failed (o : Outstanding) (n : Node) : Prop := n.relay.noAnswers = min 65535 (y.noAnswers + 1) ∧
      (y.lineToDepot.length < 16 → n.relay.lineToDepot = y.lineToDepot ++ [noAnswer o] ∧ n.relay.drops = y.drops) ∧
      (16 ≤ y.lineToDepot.length → n.relay.lineToDepot = y.lineToDepot ∧ n.relay.drops = min 65535 (y.drops + 1))
    ((l.polarity = .undetected ∨ 6 ≤ l.queue.length ∨ y.depotToLine = []) →
      exec (.depotToLineOffer dt) s = .next ⟨{ s.node with now := now' }, s.pending⟩) ∧
    (∀ (t : Telegram) (rest : List Telegram), y.depotToLine = t :: rest → l.polarity ≠ .undetected →
      l.queue.length < 6 →
      let sent := { t with sender := s.node.ownAddress, island := s.node.control.settings.island }
      let tag := field t.payload 0 1
      let others := y.outstanding.filter (fun o => !(o.dest == t.dest && o.tag == tag))
      let request := t.kind = .statusRequest ∨ t.kind = .harvestRequest
      ∃ n : Node, exec (.depotToLineOffer dt) s = .next ⟨n, s.pending⟩ ∧ n.now = now' ∧
        n.relay.depotToLine = rest ∧ n.relay.clock = y.clock ∧
        n.relay.rts = (if 12 ≤ rest.length then false else if rest.length ≤ 8 then true else y.rts) ∧
        (∃ e ∈ n.line.queue, e.telegram = sent ∧ e.cls = t.kind.accessClass ∧ e.age = l.nextAge ∧
          e.owner = if request then .relayRequest t.dest tag else .relayUnit) ∧
        n.line.queue.length = l.queue.length + 1 ∧
        (¬ request → n.relay.outstanding = y.outstanding ∧ n.relay.lineToDepot = y.lineToDepot ∧
          n.relay.noAnswers = y.noAnswers) ∧
        (request → n.relay.outstanding =
            (if others.length < 8 then others else others.drop 1) ++ [⟨t.dest, tag, t.kind, none⟩] ∧
          (∀ o tail, others = o :: tail → 8 ≤ others.length → failed o n) ∧
          (others.length < 8 → n.relay.lineToDepot = y.lineToDepot ∧ n.relay.noAnswers = y.noAnswers))) ∧
    (∀ (normal inverted : List HeardChar), s.node.CallLaw → l.transmitter ≠ .sending → l.receiver ≠ .disregarding →
      let heard := { l with receiver := .disregarding, transmitter := .idle }
      let fixed (polarity : Polarity) : Line :=
        { heard with polarity := polarity, silence := none, correction := none, invertedOnly := 0 }
      let c := l.counters
      let leaves (line : Line) : Prop :=
        exec (.receptionEnd dt normal inverted) s = .next ⟨{ s.node with now := now', line := line }, s.pending⟩
      let unsound : Prop := leaves { heard with counters := { c with checkFailures := min 65535 (c.checkFailures + 1) } }
      let isFor (t : Telegram) (kind : Kind) (o : Outstanding) : Bool :=
        o.dest == t.sender && o.tag == field t.payload 0 1 && o.kind == kind
      let taken (line : Line) (t : Telegram) (n : Node) : Prop :=
        let onLast := field t.payload 1 1 / 2 % 2 = 1
        (t.dest ≠ 250 → t.dest ≠ s.node.ownAddress → n.line = line ∧ n.relay = y) ∧
        (t.dest = s.node.ownAddress → t.kind = .time → n.line = line ∧
          n.relay = if field t.payload 2 3 < 86400 then { y with
            clock := some ⟨field t.payload 0 2, field t.payload 2 3⟩
            origination := some (now' + 600000000) } else y) ∧
        (t.dest = s.node.ownAddress → t.kind = .statusRequest ∨ t.kind = .restart → n.relay = y ∧
          n.line = if l.buffer.length < 4 then { line with buffer := l.buffer ++ [⟨t, now'⟩] }
            else { line with counters := { c with overruns := min 65535 (c.overruns + 1) } }) ∧
        (t.dest = 250 ∨ t.dest = s.node.ownAddress →
          ¬ (t.dest = s.node.ownAddress ∧ (t.kind = .time ∨ t.kind = .statusRequest ∨ t.kind = .restart)) →
          n.line = line ∧
          (16 ≤ y.lineToDepot.length → n.relay = { y with drops := min 65535 (y.drops + 1) }) ∧
          (y.lineToDepot.length < 16 → n.relay = { y with
            lineToDepot := y.lineToDepot ++ [t]
            outstanding := n.relay.outstanding } ∧
            (t.kind = .statusAnswer → (y.outstanding.any (isFor t .statusRequest)) = true →
              ∀ o, o ∈ n.relay.outstanding ↔ o ∈ y.outstanding ∧
                ¬ (o.dest = t.sender ∧ o.tag = field t.payload 0 1)) ∧
            (t.kind = .harvestAnswer → (y.outstanding.any (isFor t .harvestRequest)) = true → onLast →
              ∀ o, o ∈ n.relay.outstanding ↔ o ∈ y.outstanding ∧
                ¬ (o.dest = t.sender ∧ o.tag = field t.payload 0 1)) ∧
            (t.kind = .harvestAnswer → (y.outstanding.any (isFor t .harvestRequest)) = true → ¬ onLast →
              n.relay.outstanding = y.outstanding.map (fun o =>
                if o.dest = t.sender ∧ o.tag = field t.payload 0 1 then { o with timer := some (now' + 5000000) } else o)) ∧
            ((t.kind ≠ .statusAnswer ∨ (y.outstanding.any (isFor t .statusRequest)) = false) →
              (t.kind ≠ .harvestAnswer ∨ (y.outstanding.any (isFor t .harvestRequest)) = false) →
              n.relay.outstanding = y.outstanding)))
      let judged (line : Line) (bytes : List Byte) : Prop :=
        (readTelegram bytes = none →
          leaves { line with counters := { c with unknownKinds := min 65535 (c.unknownKinds + 1) } }) ∧
        ∀ t, readTelegram bytes = some t →
          (s.node.control.settings.address = some t.sender → leaves { line with
            clash := true, counters := { c with addressClashes := min 65535 (c.addressClashes + 1) } }) ∧
          (s.node.control.settings.address ≠ some t.sender →
            ∃ n : Node, exec (.receptionEnd dt normal inverted) s = .next ⟨n, s.pending⟩ ∧
              n = { s.node with now := now', line := n.line, relay := n.relay } ∧ taken line t n)
      (l.polarity = .normal → (goodReception normal = none → unsound) ∧
        ∀ bytes, goodReception normal = some bytes → judged heard bytes) ∧
      (l.polarity = .inverted → (goodReception inverted = none → unsound) ∧
        ∀ bytes, goodReception inverted = some bytes → judged heard bytes) ∧
      (l.polarity = .undetected →
        (goodReception normal = none → goodReception inverted = none → leaves heard) ∧
        (∀ bytes, goodReception normal = some bytes → judged (fixed .normal) bytes) ∧
        (goodReception normal = none → ∀ bytes, goodReception inverted = some bytes → judged (fixed .inverted) bytes)) ∧
      (l.polarity = .provisional →
        (goodReception normal = none → goodReception inverted = none → unsound) ∧
        (∀ bytes, goodReception normal = some bytes → judged (fixed .normal) bytes) ∧
        (goodReception normal = none → ∀ bytes, goodReception inverted = some bytes →
          (l.invertedOnly = 0 → leaves { heard with invertedOnly := 1 }) ∧
          (l.invertedOnly ≠ 0 → judged (fixed .inverted) bytes)))) ∧
    (∀ t, s.node.CallLaw →
      let timed (polarity : Polarity) (correction : Option Moment) : Node := { s.node with
        now := max now' t
        line := { l with polarity := polarity, silence := none, correction := correction, invertedOnly := 0 } }
      (l.polarity = .undetected → l.silence = some t →
        exec (.silenceTimerExpiry dt) s = .next ⟨timed .provisional (some (max now' t + 60000000)), s.pending⟩) ∧
      (l.polarity = .provisional → l.correction = some t →
        exec (.correctionTimerExpiry dt) s = .next ⟨timed .normal none, s.pending⟩)) ∧
    (∀ (supplyLow : Bool) (e : QueueEntry) (dest tag : Nat), l.transmitter = .sending →
      l.queue.find? (·.sending) = some e → e.owner = .relayRequest dest tag →
      (∃ n : Node, exec (.transmissionSent dt supplyLow) s = .next ⟨n, s.pending⟩ ∧ n.now = now' ∧
        n.relay = { y with outstanding := y.outstanding.map (fun o =>
          if o.dest = dest ∧ o.tag = tag then { o with timer := some (now' + 5000000) } else o) }) ∧
      (7 ≤ e.collisions → e.telegram.kind ≠ .fillNotice → ∀ o,
        y.outstanding.find? (fun o => o.dest == dest && o.tag == tag) = some o →
        ∃ n : Node, exec (.collision dt) s = .next ⟨n, s.pending⟩ ∧ n.now = now' ∧ failed o n ∧
          n.relay.outstanding = y.outstanding.filter (fun x => !(x.dest == dest && x.tag == tag)))) ∧
    (∀ (o : Outstanding) (t : Moment), firstTiming y.outstanding = some (o, t) →
      ∃ n : Node, exec (.answerTimerExpiry dt) s = .next ⟨n, s.pending⟩ ∧ n.now = max now' t ∧ failed o n ∧
        n.relay.outstanding = y.outstanding.filter (fun x => !(x.dest == o.dest && x.tag == o.tag)) ∧
        n.line = l ∧ n.relay.depotToLine = y.depotToLine ∧ n.relay.clock = y.clock) ∧
    exec (.relayClockSecond dt) s = .next
      ⟨{ s.node with
          now := now'
          relay := { y with
            clock := match y.clock with
              | none => none
              | some c => some ⟨c.day, if c.seconds + 1 = 86400 then 0 else c.seconds + 1⟩ } }, s.pending⟩ ∧
    (∀ c t, y.clock = some c → y.origination = some t → l.queue.length < 6 →
      exec (.originationTimerExpiry dt) s = .next
        ⟨{ s.node with
            now := max now' t
            relay := { y with origination := some (max now' t + 600000000) }
            line := { l with
              queue := insertEntry ⟨s.node.telegram .time 0 (bytesOf 2 c.day ++ bytesOf 3 c.seconds), 1, l.nextAge, 0, false,
                .relayUnit⟩ l.queue
              nextAge := l.nextAge + 1 } }, s.pending⟩)) ∧
  ∀ (table : List Outstanding) (o : Outstanding) (t : Moment), firstTiming table = some (o, t) →
    o ∈ table ∧ o.timer = some t ∧ ∀ x ∈ table, ∀ u, x.timer = some u → t ≤ u

/-! ### Configuration, start and status (11) -/

/-- POWER_ON, RESET_PIN, RESET_PIN_HELD, SUPPLY_FAILS and RESTART (R88, R184, R188, R189): every start gives every unit its
start values and drives no output, keeps the store, and has its own cause: TELEGRAM for a RESTART taken, PIN for the pin's
release, and POWER for it when the supply rose while the pin was held. A row being programmed is torn: it fails its check, the
staging queue is empty, and every other row reads as before. That POWER_ON starts a node already supplied, RESET_PIN one whose
pin was not held, and that a node without supply holds the start values with cause POWER, is the model's choice (log entry
27); so are the listed bytes of a torn row (log entry 8) and the start values that no rule gives (log entries 9, 11 and 37). -/
def Obligations.StartsGiveStartValues : Prop :=
  (∀ (s : State) (dt : Nat),
    let started (power : Power) (cause : Cause) : Node := { Node.reset with
      now := s.node.now + dt
      fresh := s.node.fresh
      power := power
      control := .start cause
      sounding := .start (s.node.now + dt)
      press := .start (s.node.now + dt)
      store := s.node.store.cutOff }
    let p := s.node.power
    exec (.powerOn dt) s = .next ⟨started ⟨true, p.pinHeld, p.pinHeld⟩ .power, s.pending⟩ ∧
    exec (.supplyFails dt) s = .next ⟨started ⟨false, p.pinHeld, false⟩ .power, s.pending⟩ ∧
    (p.supply = true → p.pinHeld = false →
      exec (.resetPinHeld dt) s = .next ⟨started ⟨true, true, p.startWaits⟩ .pin, s.pending⟩) ∧
    (p.supply = true →
      exec (.resetPin dt) s = .next
        ⟨started ⟨true, false, false⟩ (if p.startWaits then .power else .pin), s.pending⟩) ∧
    (∀ r : Received, s.node.live = true →
      s.node.line.buffer.find? (fun r => r.telegram.kind.taker == .control) = some r → r.telegram.kind = .restart →
      exec (.restart dt) s = .next ⟨started p .telegram, s.pending⟩) ∧
    ∀ power cause, (started power cause).lockOutput = .off ∧ (started power cause).forwardOutput = .off ∧
      (started power cause).reverseOutput = .off ∧ (started power cause).transducerOutput = false ∧
      (started power cause).lamps = ⟨.dark, .dark, .dark⟩ ∧ (started power cause).relay.rts = false) ∧
  ∀ st : Store, st.cutOff.staging = [] ∧ st.cutOff.programEnds = none ∧ st.cutOff.cells = st.cells ∧
    (st.programEnds = none → st.cutOff.torn = st.torn) ∧
    ∀ t w rest, st.programEnds = some t → st.staging = w :: rest →
      st.cutOff.readRow w.region w.row = none ∧
      ∀ region row, rowPlace region row ≠ rowPlace w.region w.row → st.cutOff.readRow region row = st.readRow region row

/-- CONFIGURATION_READ (R185 to R187) during a start's read. A block of 31 bytes whose check agrees and whose role, and for a
station fraction and press fitted, are defined is good: the node is RUNNING with every field clamped into its range in the
table's order, and CONFIG CLAMPED says whether one was. Any other leaves the node in SAFE with the values of R187. The
pseudo-random register takes the address, the silence timer starts, and a relay asserts RTS. -/
def Obligations.ConfigurationIsCheckedAndClamped : Prop :=
  ∀ (s : State) (dt : Nat) (delivered : List Byte), s.node.power.supply = true → s.node.power.pinHeld = false →
    s.node.CardLaw →
    (s.node.control.phase ≠ .reading →
      exec (.configurationRead dt delivered) s = .next ⟨{ s.node with now := s.node.now + dt }, s.pending⟩) ∧
    (s.node.control.phase = .reading →
      let b := delivered.take 31
      let f (place n : Nat) : Nat := field b place n
      let good := b.length = 31 ∧ checkAgrees b = true ∧ (f 0 1 = 1 ∨ (f 0 1 = 0 ∧ f 5 1 ≤ 4 ∧ f 6 1 ≤ 1))
      let within (lo hi x : Nat) : Nat := max lo (min hi x)
      ∃ n : Node, exec (.configurationRead dt delivered) s = .next ⟨n, s.pending⟩ ∧ n.now = s.node.now + dt ∧
        n.line.random = BitVec.ofNat 16 (n.control.settings.address.getD 1) ∧
        n.line.silence = some (n.now + 5000000) ∧ n.store = s.node.store ∧ n.control.cause = s.node.control.cause ∧
        (let c := n.control.settings
         (good → n.control.phase = .running ∧ c.address = some (within 1 239 (f 1 1)) ∧ c.island = max 1 (f 2 1) ∧
            c.position = min 4095 (f 3 2) ∧
            (f 0 1 = 1 → c.role = .relay ∧ n.relay.phase = .running ∧ n.relay.rts = true ∧
              (n.control.clamped = true ↔ f 1 1 < 1 ∨ 239 < f 1 1 ∨ f 2 1 < 1 ∨ 4095 < f 3 2)) ∧
            (f 0 1 = 0 → c.role = .station ∧ c.fraction.code = f 5 1 ∧ (c.pressFitted = true ↔ f 6 1 = 1) ∧
              n.press.homingFrom = some (n.now + 250000) ∧
              c.pressLimit = within 1 3 (f 7 1) ∧ c.pressStart = min 23 (f 8 1) ∧ c.pressEnd = min 23 (f 9 1) ∧
              c.pressThreshold = within 300 900 (f 10 2) ∧
              c.pingCount = (if f 12 1 ≤ 3 then 3 else if f 12 1 ≤ 5 then 5 else 7) ∧
              c.blanking = within 600 3000 (f 13 2) ∧ c.e0 = within 500 4000 (f 15 2) ∧
              c.f0 = within 100 (c.e0 - 200) (f 17 2) ∧ c.fullThreshold = within 800 990 (f 19 2) ∧
              c.callThreshold = within 500 (min 950 (c.fullThreshold - 50)) (f 21 2) ∧
              c.joinThreshold = within 300 c.callThreshold (f 23 2) ∧ c.joinRadius = f 25 1 ∧
              c.bagIncrement = min 50 (f 26 1) ∧ c.baseRate = f 27 1 ∧ c.rolloverHour = min 23 (f 28 1) ∧
              (n.control.clamped = false ↔ c.address = some (f 1 1) ∧ c.island = f 2 1 ∧ c.position = f 3 2 ∧
                c.pressLimit = f 7 1 ∧ c.pressStart = f 8 1 ∧ c.pressEnd = f 9 1 ∧ c.pressThreshold = f 10 2 ∧
                c.pingCount = f 12 1 ∧ c.blanking = f 13 2 ∧ c.e0 = f 15 2 ∧ c.f0 = f 17 2 ∧
                c.fullThreshold = f 19 2 ∧ c.callThreshold = f 21 2 ∧ c.joinThreshold = f 23 2 ∧
                c.bagIncrement = f 26 1 ∧ c.rolloverHour = f 28 1))) ∧
         (¬ good → n.control.phase = .safe ∧ n.control.clamped = s.node.control.clamped ∧ n.hatch.station = .safe ∧
            n.sounding.phase = .stopped ∧ n.press.state = .stopped ∧ n.neighbour.phase = .stopped ∧
            n.call.stopped = true ∧ n.relay.phase = .stopped ∧
            (b.length < 31 → c.address = none ∧ c.role = .station ∧ c.fraction = .residual ∧ c.pressFitted = true ∧
              c.rolloverHour = 4) ∧
            (b.length = 31 → c.address = (if 1 ≤ f 1 1 ∧ f 1 1 ≤ 239 then some (f 1 1) else none) ∧
              c.role = (if f 0 1 = 1 then .relay else .station) ∧
              c.fraction.code = (if f 5 1 ≤ 4 then f 5 1 else 0) ∧ (c.pressFitted = false ↔ f 6 1 = 0) ∧
              c.rolloverHour = min 23 (f 28 1)))))

/-- STATUS_REQUEST and STATUS_ANSWER (R190, R191). At a station a request makes part 1 under its tag pending; an earlier
answer of which a part has been built is abandoned, and that its offer, when it waits for a place, is withdrawn, so that the
new answer waits anew behind the others, is the model's choice (log entry 49). Once the scans are done each part, built with
the values as they stand, enters the transmit queue, or waits when it is full. A relay builds its one answer at once for the
depot, and with 16 telegrams queued it is dropped and counted (R178); with the relay clock UNSET the seconds are 16,777,215
and the day number is a free value, of which no rule says anything (log entry 21). The table check value goes high byte first,
as 12 carries the check values. That the bits of the flags word without a flag are 0 is the model's choice (log entry 52). -/
def Obligations.StatusRequestsAreAnswered : Prop :=
  ∀ (s : State) (dt : Nat), s.node.live = true → s.node.control.phase = .running →
    let now' := s.node.now + dt
    let n0 := s.node
    let l := s.node.line
    let counters (c : LineCounters) : List Byte := bytesOf 2 c.checkFailures ++ bytesOf 2 c.overruns ++
      bytesOf 2 c.collisionDrops ++ bytesOf 2 c.queueDrops ++ bytesOf 2 c.unknownKinds ++ bytesOf 2 c.addressClashes
    (∀ r : Received, l.buffer.find? (fun r => r.telegram.kind.taker == .control) = some r →
      r.telegram.kind = .statusRequest →
      let tag := field r.telegram.payload 0 1
      let rest := l.buffer.eraseP (fun r => r.telegram.kind.taker == .control)
      (n0.control.settings.role = .station →
        ((∀ a, n0.control.answer = some a → a.part = 1 ∧ a.out = false) →
          exec (.statusRequest dt) s = .next
            ⟨{ n0 with
                now := now'
                line := { l with buffer := rest }
                control := { n0.control with answer := some ⟨tag, 1, false⟩ } }, s.pending⟩) ∧
        ((∃ a, n0.control.answer = some a ∧ (a.part ≠ 1 ∨ a.out = true)) →
          exec (.statusRequest dt) s = .next
            ⟨{ n0 with
                now := now'
                line := { l with
                  buffer := rest
                  queue := l.queue.map (fun e => if e.owner = .status then { e with owner := .abandoned } else e)
                  waiting := l.waiting.filter (fun p => p != .status) }
                control := { n0.control with answer := some ⟨tag, 1, false⟩ } }, s.pending⟩)) ∧
      (n0.control.settings.role = .relay →
        let y := n0.relay
        let day := match y.clock with | some c => c.day | none => (Config.relayUnsetDay n0.fresh).toNat
        let answer := n0.telegram .statusAnswer 250
          ([BitVec.ofNat 8 tag, 0x11, 1, BitVec.ofNat 8 n0.control.cause.code] ++
            bytesOf 2 (bit n0.control.clamped 5 + bit l.clash 8) ++
            [BitVec.ofNat 8 l.polarity.code, if y.clock.isSome then 1 else 0] ++ bytesOf 2 day ++
            bytesOf 3 ((y.clock.map (·.seconds)).getD 16777215) ++ counters l.counters ++ bytesOf 2 y.checkFailures ++
            bytesOf 2 y.overruns ++ bytesOf 2 y.drops ++ bytesOf 2 y.noAnswers)
        exec (.statusRequest dt) s = .next
          ⟨{ n0 with
              now := now'
              fresh := if y.clock.isSome then n0.fresh else n0.fresh + 1
              line := { l with buffer := rest }
              relay := if y.lineToDepot.length < 16 then { y with lineToDepot := y.lineToDepot ++ [answer] }
                else { y with drops := min 65535 (y.drops + 1) } }, s.pending⟩ ∧ answer.payload.length = 33)) ∧
    (∀ a : PendingAnswer, n0.control.settings.role = .station → n0.control.answer = some a → a.out = false →
      ((n0.cards.phase = .scanning ∨ n0.log.phase = .scanning) →
        exec (.statusAnswer dt) s = .next ⟨{ n0 with now := now' }, s.pending⟩) ∧
      (n0.cards.phase ≠ .scanning → n0.log.phase = .opened → l.waiting = [] →
        (6 ≤ l.queue.length →
          exec (.statusAnswer dt) s = .next
            ⟨{ n0 with now := now', line := { l with waiting := [.status] } }, s.pending⟩) ∧
        (l.queue.length < 6 →
          let round := if n0.call.state = .scheduled then n0.call.round else none
          let oldest := (n0.log.held.head?.map (·.seq)).getD n0.log.accounting.next
          let newest := (n0.log.held.getLast?.map (·.seq)).getD n0.log.accounting.next
          let flags := bit n0.sounding.full 0 + bit n0.sounding.sensorFault 1 +
            bit (n0.control.settings.pressFitted && n0.press.state == .fault) 2 + bit n0.hatch.stuck 3 +
            bit n0.hatch.service.isSome 4 + bit n0.control.clamped 5 + bit n0.cards.repaired 6 +
            bit n0.log.accounting.rebuilt 7 + bit l.clash 8
          let payload : List Byte :=
            if a.part = 1 then
              [BitVec.ofNat 8 a.tag, 0x21, 0, BitVec.ofNat 8 n0.hatch.station.code, BitVec.ofNat 8 n0.control.cause.code] ++
                bytesOf 2 flags ++ [BitVec.ofNat 8 l.polarity.code] ++ bytesOf 2 (n0.sounding.fill.getD 65535) ++
                [BitVec.ofNat 8 (resultCode n0.sounding.last)] ++ bytesOf 2 (n0.sounding.median.getD 65535) ++
                [BitVec.ofNat 8 n0.call.state.code, BitVec.ofNat 8 (n0.call.tag.getD 255)] ++
                bytesOf 2 ((round.map (·.1)).getD 65535) ++ [BitVec.ofNat 8 ((round.map (·.2)).getD 255)] ++
                [if n0.clock.seconds.isSome then 1 else 0] ++ bytesOf 2 n0.clock.day ++
                bytesOf 3 (n0.clock.seconds.getD 16777215) ++ bytesOf 3 n0.log.accounting.total ++
                bytesOf 2 n0.log.accounting.count ++ bytesOf 2 n0.log.accounting.overflowCount
            else
              [BitVec.ofNat 8 a.tag, 0x22] ++ bytesOf 2 n0.cards.entries ++
                [BitVec.ofNat 8 (n0.cards.checkValue.toNat / 256), BitVec.ofNat 8 n0.cards.checkValue.toNat] ++
                [BitVec.ofNat 8 n0.cards.revocations] ++ bytesOf 2 n0.tally.entries.length ++ bytesOf 2 n0.tally.loss ++
                bytesOf 2 n0.log.held.length ++ bytesOf 3 oldest.toNat ++ bytesOf 3 newest.toNat ++
                bytesOf 2 n0.log.lost ++ bytesOf 3 n0.log.accounting.hatchCycles ++
                bytesOf 2 n0.log.accounting.pressCycles ++ bytesOf 2 n0.call.stale ++ counters l.counters
          exec (.statusAnswer dt) s = .next
            ⟨{ n0 with
                now := now'
                line := { l with
                  queue := insertEntry ⟨n0.telegram .statusAnswer 250 payload, 3, l.nextAge, 0, false, .status⟩ l.queue
                  nextAge := l.nextAge + 1 }
                control := { n0.control with answer := some { a with out := true } } }, s.pending⟩ ∧
          payload.length = if a.part = 1 then 31 else 40)))

/-! ### The laws every step keeps -/

/-- At reset, right after a new part's first power-on, every law of this section holds. -/
def Obligations.ResetMeetsTheLaws : Prop :=
  Node.reset.WithinCapacities ∧ Node.reset.TallyLaw ∧ Node.reset.StoreForm ∧ Node.reset.FullLaw ∧ Node.reset.LogLaw ∧
    Node.reset.ReleaseLaw ∧ Node.reset.DriveLaw ∧ Node.reset.QuietLaw ∧ Node.reset.NoticeLaw ∧ Node.reset.CardLaw ∧
    Node.reset.CallLaw ∧ Node.reset.FreedLaw ∧
    State.reset = ⟨Node.reset, []⟩

/-- No step lets a collection outgrow what the spec gives it (R69, R88, R116, R138, R145, R152, R156, R175, R180), gives a
card two tally entries or two entries one stamp (R69, R71, R72), or breaks the canonical form of the store's cells (R87). The
stamps are told apart as long as the touch counter is short of its maximum by more than the records that a rebuild may touch;
at the maximum a stamp is a free value (log entry 36). Every step keeps, too, that the entries kept for the deposit log and
for the card table as they freed are free ones, that the log keeps some only while it has more to write, and that the card
table keeps no more than it has rows to place (R89, log entry 7). -/
def Obligations.TablesKeepTheirForm : Prop :=
  ∀ s s' : State, step s = .next s' →
    (s.node.WithinCapacities → s'.node.WithinCapacities) ∧
      (s.node.tally.touches + s.node.log.held.length < 4294967295 → s.node.TallyLaw → s'.node.TallyLaw) ∧
      (s.node.StoreForm → s'.node.StoreForm) ∧ (s.node.FreedLaw → s'.node.FreedLaw)

/-- Every step keeps the FULL law (R18), that FULL is set only with a known fill above the full threshold − 50, and the log law
(R98), that at most 1,024 records are held with consecutive sequence numbers up to the one before the next. -/
def Obligations.FullLawAndLogLawAreKept : Prop :=
  ∀ s s' : State, step s = .next s' →
    (s.node.FullLaw → s'.node.FullLaw) ∧ (s.node.LogLaw → s'.node.LogLaw)

/-- Every step keeps the release law, and with it the lock law (R58): the lock is driven only while a release window is open,
the press reads at home and the hatch is closed. -/
def Obligations.LockLawIsKept : Prop :=
  (∀ s s' : State, step s = .next s' → s.node.ReleaseLaw → s'.node.ReleaseLaw) ∧
    ∀ n : Node, n.ReleaseLaw → n.LockLaw ∧ (n.lockOutput ≠ .off → n.hatch.hatch = .closed)

/-- Every step keeps the drive law and with it the quiet law (R57, R120, R125). Under the two the press drives are never on
together, forward drive is on only in FORWARD and reverse drive only in REVERSE; and, under the release law too, the press is
driven only while no release window is open and, but for the reverse drive of kind INTERRUPTED, RECOVERY or HOMING, while the
hatch reads closed and the lift reads seated. -/
def Obligations.DriveLawIsKept : Prop :=
  (∀ s s' : State, step s = .next s' → (s.node.DriveLaw → s'.node.DriveLaw) ∧
    (s.node.DriveLaw → s.node.QuietLaw → s'.node.QuietLaw)) ∧
    ∀ n : Node, n.DriveLaw → n.OneDrive ∧ (n.forwardOutput ≠ .off → n.press.state = .forward) ∧
      (n.reverseOutput ≠ .off → n.press.state = .reversing) ∧
      (n.QuietLaw → n.ReleaseLaw → n.forwardOutput ≠ .off ∨ n.reverseOutput ≠ .off →
        n.hatch.phase ≠ .window ∧
        (n.forwardOutput ≠ .off ∨ n.press.kind = .normal →
          n.hatch.hatch = .closed ∧ n.hatch.lift = .seated))

/-- Every step keeps the card table's law (R27, R35, R38): each card number stands once in its bucket, each revoked number
once, the counts count them, and the check value is the sum of the records' CRC-16 values. -/
def Obligations.CardLawIsKept : Prop :=
  ∀ s s' : State, step s = .next s' → s.node.CardLaw → s'.node.CardLaw
end

