-- ==== Sys2Proof/Laws/State.lean ====
section
/-! SUPPORT. One lemma for each field of the node and each update of a unit, so that no proof unfolds a record update, and
what time and the premises of acting do. -/

namespace Sys2Proof.Machine

/-! ### withControl -/

@[simp] theorem Node.withControl_now (n : Node) (x : Control) : (n.withControl x).now = n.now := rfl
@[simp] theorem Node.withControl_fresh (n : Node) (x : Control) : (n.withControl x).fresh = n.fresh := rfl
@[simp] theorem Node.withControl_power (n : Node) (x : Control) : (n.withControl x).power = n.power := rfl
@[simp] theorem Node.withControl_control (n : Node) (x : Control) : (n.withControl x).control = x := rfl
@[simp] theorem Node.withControl_sounding (n : Node) (x : Control) : (n.withControl x).sounding = n.sounding := rfl
@[simp] theorem Node.withControl_cards (n : Node) (x : Control) : (n.withControl x).cards = n.cards := rfl
@[simp] theorem Node.withControl_hatch (n : Node) (x : Control) : (n.withControl x).hatch = n.hatch := rfl
@[simp] theorem Node.withControl_tally (n : Node) (x : Control) : (n.withControl x).tally = n.tally := rfl
@[simp] theorem Node.withControl_clock (n : Node) (x : Control) : (n.withControl x).clock = n.clock := rfl
@[simp] theorem Node.withControl_store (n : Node) (x : Control) : (n.withControl x).store = n.store := rfl
@[simp] theorem Node.withControl_log (n : Node) (x : Control) : (n.withControl x).log = n.log := rfl
@[simp] theorem Node.withControl_press (n : Node) (x : Control) : (n.withControl x).press = n.press := rfl
@[simp] theorem Node.withControl_line (n : Node) (x : Control) : (n.withControl x).line = n.line := rfl
@[simp] theorem Node.withControl_neighbour (n : Node) (x : Control) : (n.withControl x).neighbour = n.neighbour := rfl
@[simp] theorem Node.withControl_call (n : Node) (x : Control) : (n.withControl x).call = n.call := rfl
@[simp] theorem Node.withControl_relay (n : Node) (x : Control) : (n.withControl x).relay = n.relay := rfl

/-! ### withSounding -/

@[simp] theorem Node.withSounding_now (n : Node) (x : Sounding) : (n.withSounding x).now = n.now := rfl
@[simp] theorem Node.withSounding_fresh (n : Node) (x : Sounding) : (n.withSounding x).fresh = n.fresh := rfl
@[simp] theorem Node.withSounding_power (n : Node) (x : Sounding) : (n.withSounding x).power = n.power := rfl
@[simp] theorem Node.withSounding_control (n : Node) (x : Sounding) : (n.withSounding x).control = n.control := rfl
@[simp] theorem Node.withSounding_sounding (n : Node) (x : Sounding) : (n.withSounding x).sounding = x := rfl
@[simp] theorem Node.withSounding_cards (n : Node) (x : Sounding) : (n.withSounding x).cards = n.cards := rfl
@[simp] theorem Node.withSounding_hatch (n : Node) (x : Sounding) : (n.withSounding x).hatch = n.hatch := rfl
@[simp] theorem Node.withSounding_tally (n : Node) (x : Sounding) : (n.withSounding x).tally = n.tally := rfl
@[simp] theorem Node.withSounding_clock (n : Node) (x : Sounding) : (n.withSounding x).clock = n.clock := rfl
@[simp] theorem Node.withSounding_store (n : Node) (x : Sounding) : (n.withSounding x).store = n.store := rfl
@[simp] theorem Node.withSounding_log (n : Node) (x : Sounding) : (n.withSounding x).log = n.log := rfl
@[simp] theorem Node.withSounding_press (n : Node) (x : Sounding) : (n.withSounding x).press = n.press := rfl
@[simp] theorem Node.withSounding_line (n : Node) (x : Sounding) : (n.withSounding x).line = n.line := rfl
@[simp] theorem Node.withSounding_neighbour (n : Node) (x : Sounding) : (n.withSounding x).neighbour = n.neighbour := rfl
@[simp] theorem Node.withSounding_call (n : Node) (x : Sounding) : (n.withSounding x).call = n.call := rfl
@[simp] theorem Node.withSounding_relay (n : Node) (x : Sounding) : (n.withSounding x).relay = n.relay := rfl

/-! ### withCards -/

@[simp] theorem Node.withCards_now (n : Node) (x : Cards) : (n.withCards x).now = n.now := rfl
@[simp] theorem Node.withCards_fresh (n : Node) (x : Cards) : (n.withCards x).fresh = n.fresh := rfl
@[simp] theorem Node.withCards_power (n : Node) (x : Cards) : (n.withCards x).power = n.power := rfl
@[simp] theorem Node.withCards_control (n : Node) (x : Cards) : (n.withCards x).control = n.control := rfl
@[simp] theorem Node.withCards_sounding (n : Node) (x : Cards) : (n.withCards x).sounding = n.sounding := rfl
@[simp] theorem Node.withCards_cards (n : Node) (x : Cards) : (n.withCards x).cards = x := rfl
@[simp] theorem Node.withCards_hatch (n : Node) (x : Cards) : (n.withCards x).hatch = n.hatch := rfl
@[simp] theorem Node.withCards_tally (n : Node) (x : Cards) : (n.withCards x).tally = n.tally := rfl
@[simp] theorem Node.withCards_clock (n : Node) (x : Cards) : (n.withCards x).clock = n.clock := rfl
@[simp] theorem Node.withCards_store (n : Node) (x : Cards) : (n.withCards x).store = n.store := rfl
@[simp] theorem Node.withCards_log (n : Node) (x : Cards) : (n.withCards x).log = n.log := rfl
@[simp] theorem Node.withCards_press (n : Node) (x : Cards) : (n.withCards x).press = n.press := rfl
@[simp] theorem Node.withCards_line (n : Node) (x : Cards) : (n.withCards x).line = n.line := rfl
@[simp] theorem Node.withCards_neighbour (n : Node) (x : Cards) : (n.withCards x).neighbour = n.neighbour := rfl
@[simp] theorem Node.withCards_call (n : Node) (x : Cards) : (n.withCards x).call = n.call := rfl
@[simp] theorem Node.withCards_relay (n : Node) (x : Cards) : (n.withCards x).relay = n.relay := rfl

/-! ### withHatch -/

@[simp] theorem Node.withHatch_now (n : Node) (x : Hatch) : (n.withHatch x).now = n.now := rfl
@[simp] theorem Node.withHatch_fresh (n : Node) (x : Hatch) : (n.withHatch x).fresh = n.fresh := rfl
@[simp] theorem Node.withHatch_power (n : Node) (x : Hatch) : (n.withHatch x).power = n.power := rfl
@[simp] theorem Node.withHatch_control (n : Node) (x : Hatch) : (n.withHatch x).control = n.control := rfl
@[simp] theorem Node.withHatch_sounding (n : Node) (x : Hatch) : (n.withHatch x).sounding = n.sounding := rfl
@[simp] theorem Node.withHatch_cards (n : Node) (x : Hatch) : (n.withHatch x).cards = n.cards := rfl
@[simp] theorem Node.withHatch_hatch (n : Node) (x : Hatch) : (n.withHatch x).hatch = x := rfl
@[simp] theorem Node.withHatch_tally (n : Node) (x : Hatch) : (n.withHatch x).tally = n.tally := rfl
@[simp] theorem Node.withHatch_clock (n : Node) (x : Hatch) : (n.withHatch x).clock = n.clock := rfl
@[simp] theorem Node.withHatch_store (n : Node) (x : Hatch) : (n.withHatch x).store = n.store := rfl
@[simp] theorem Node.withHatch_log (n : Node) (x : Hatch) : (n.withHatch x).log = n.log := rfl
@[simp] theorem Node.withHatch_press (n : Node) (x : Hatch) : (n.withHatch x).press = n.press := rfl
@[simp] theorem Node.withHatch_line (n : Node) (x : Hatch) : (n.withHatch x).line = n.line := rfl
@[simp] theorem Node.withHatch_neighbour (n : Node) (x : Hatch) : (n.withHatch x).neighbour = n.neighbour := rfl
@[simp] theorem Node.withHatch_call (n : Node) (x : Hatch) : (n.withHatch x).call = n.call := rfl
@[simp] theorem Node.withHatch_relay (n : Node) (x : Hatch) : (n.withHatch x).relay = n.relay := rfl

/-! ### withTally -/

@[simp] theorem Node.withTally_now (n : Node) (x : Tally) : (n.withTally x).now = n.now := rfl
@[simp] theorem Node.withTally_fresh (n : Node) (x : Tally) : (n.withTally x).fresh = n.fresh := rfl
@[simp] theorem Node.withTally_power (n : Node) (x : Tally) : (n.withTally x).power = n.power := rfl
@[simp] theorem Node.withTally_control (n : Node) (x : Tally) : (n.withTally x).control = n.control := rfl
@[simp] theorem Node.withTally_sounding (n : Node) (x : Tally) : (n.withTally x).sounding = n.sounding := rfl
@[simp] theorem Node.withTally_cards (n : Node) (x : Tally) : (n.withTally x).cards = n.cards := rfl
@[simp] theorem Node.withTally_hatch (n : Node) (x : Tally) : (n.withTally x).hatch = n.hatch := rfl
@[simp] theorem Node.withTally_tally (n : Node) (x : Tally) : (n.withTally x).tally = x := rfl
@[simp] theorem Node.withTally_clock (n : Node) (x : Tally) : (n.withTally x).clock = n.clock := rfl
@[simp] theorem Node.withTally_store (n : Node) (x : Tally) : (n.withTally x).store = n.store := rfl
@[simp] theorem Node.withTally_log (n : Node) (x : Tally) : (n.withTally x).log = n.log := rfl
@[simp] theorem Node.withTally_press (n : Node) (x : Tally) : (n.withTally x).press = n.press := rfl
@[simp] theorem Node.withTally_line (n : Node) (x : Tally) : (n.withTally x).line = n.line := rfl
@[simp] theorem Node.withTally_neighbour (n : Node) (x : Tally) : (n.withTally x).neighbour = n.neighbour := rfl
@[simp] theorem Node.withTally_call (n : Node) (x : Tally) : (n.withTally x).call = n.call := rfl
@[simp] theorem Node.withTally_relay (n : Node) (x : Tally) : (n.withTally x).relay = n.relay := rfl

/-! ### withClock -/

@[simp] theorem Node.withClock_now (n : Node) (x : Clock) : (n.withClock x).now = n.now := rfl
@[simp] theorem Node.withClock_fresh (n : Node) (x : Clock) : (n.withClock x).fresh = n.fresh := rfl
@[simp] theorem Node.withClock_power (n : Node) (x : Clock) : (n.withClock x).power = n.power := rfl
@[simp] theorem Node.withClock_control (n : Node) (x : Clock) : (n.withClock x).control = n.control := rfl
@[simp] theorem Node.withClock_sounding (n : Node) (x : Clock) : (n.withClock x).sounding = n.sounding := rfl
@[simp] theorem Node.withClock_cards (n : Node) (x : Clock) : (n.withClock x).cards = n.cards := rfl
@[simp] theorem Node.withClock_hatch (n : Node) (x : Clock) : (n.withClock x).hatch = n.hatch := rfl
@[simp] theorem Node.withClock_tally (n : Node) (x : Clock) : (n.withClock x).tally = n.tally := rfl
@[simp] theorem Node.withClock_clock (n : Node) (x : Clock) : (n.withClock x).clock = x := rfl
@[simp] theorem Node.withClock_store (n : Node) (x : Clock) : (n.withClock x).store = n.store := rfl
@[simp] theorem Node.withClock_log (n : Node) (x : Clock) : (n.withClock x).log = n.log := rfl
@[simp] theorem Node.withClock_press (n : Node) (x : Clock) : (n.withClock x).press = n.press := rfl
@[simp] theorem Node.withClock_line (n : Node) (x : Clock) : (n.withClock x).line = n.line := rfl
@[simp] theorem Node.withClock_neighbour (n : Node) (x : Clock) : (n.withClock x).neighbour = n.neighbour := rfl
@[simp] theorem Node.withClock_call (n : Node) (x : Clock) : (n.withClock x).call = n.call := rfl
@[simp] theorem Node.withClock_relay (n : Node) (x : Clock) : (n.withClock x).relay = n.relay := rfl

/-! ### withStore -/

@[simp] theorem Node.withStore_now (n : Node) (x : Store) : (n.withStore x).now = n.now := rfl
@[simp] theorem Node.withStore_fresh (n : Node) (x : Store) : (n.withStore x).fresh = n.fresh := rfl
@[simp] theorem Node.withStore_power (n : Node) (x : Store) : (n.withStore x).power = n.power := rfl
@[simp] theorem Node.withStore_control (n : Node) (x : Store) : (n.withStore x).control = n.control := rfl
@[simp] theorem Node.withStore_sounding (n : Node) (x : Store) : (n.withStore x).sounding = n.sounding := rfl
@[simp] theorem Node.withStore_cards (n : Node) (x : Store) : (n.withStore x).cards = n.cards := rfl
@[simp] theorem Node.withStore_hatch (n : Node) (x : Store) : (n.withStore x).hatch = n.hatch := rfl
@[simp] theorem Node.withStore_tally (n : Node) (x : Store) : (n.withStore x).tally = n.tally := rfl
@[simp] theorem Node.withStore_clock (n : Node) (x : Store) : (n.withStore x).clock = n.clock := rfl
@[simp] theorem Node.withStore_store (n : Node) (x : Store) : (n.withStore x).store = x := rfl
@[simp] theorem Node.withStore_log (n : Node) (x : Store) : (n.withStore x).log = n.log := rfl
@[simp] theorem Node.withStore_press (n : Node) (x : Store) : (n.withStore x).press = n.press := rfl
@[simp] theorem Node.withStore_line (n : Node) (x : Store) : (n.withStore x).line = n.line := rfl
@[simp] theorem Node.withStore_neighbour (n : Node) (x : Store) : (n.withStore x).neighbour = n.neighbour := rfl
@[simp] theorem Node.withStore_call (n : Node) (x : Store) : (n.withStore x).call = n.call := rfl
@[simp] theorem Node.withStore_relay (n : Node) (x : Store) : (n.withStore x).relay = n.relay := rfl

/-! ### withLog -/

@[simp] theorem Node.withLog_now (n : Node) (x : Log) : (n.withLog x).now = n.now := rfl
@[simp] theorem Node.withLog_fresh (n : Node) (x : Log) : (n.withLog x).fresh = n.fresh := rfl
@[simp] theorem Node.withLog_power (n : Node) (x : Log) : (n.withLog x).power = n.power := rfl
@[simp] theorem Node.withLog_control (n : Node) (x : Log) : (n.withLog x).control = n.control := rfl
@[simp] theorem Node.withLog_sounding (n : Node) (x : Log) : (n.withLog x).sounding = n.sounding := rfl
@[simp] theorem Node.withLog_cards (n : Node) (x : Log) : (n.withLog x).cards = n.cards := rfl
@[simp] theorem Node.withLog_hatch (n : Node) (x : Log) : (n.withLog x).hatch = n.hatch := rfl
@[simp] theorem Node.withLog_tally (n : Node) (x : Log) : (n.withLog x).tally = n.tally := rfl
@[simp] theorem Node.withLog_clock (n : Node) (x : Log) : (n.withLog x).clock = n.clock := rfl
@[simp] theorem Node.withLog_store (n : Node) (x : Log) : (n.withLog x).store = n.store := rfl
@[simp] theorem Node.withLog_log (n : Node) (x : Log) : (n.withLog x).log = x := rfl
@[simp] theorem Node.withLog_press (n : Node) (x : Log) : (n.withLog x).press = n.press := rfl
@[simp] theorem Node.withLog_line (n : Node) (x : Log) : (n.withLog x).line = n.line := rfl
@[simp] theorem Node.withLog_neighbour (n : Node) (x : Log) : (n.withLog x).neighbour = n.neighbour := rfl
@[simp] theorem Node.withLog_call (n : Node) (x : Log) : (n.withLog x).call = n.call := rfl
@[simp] theorem Node.withLog_relay (n : Node) (x : Log) : (n.withLog x).relay = n.relay := rfl

/-! ### withPress -/

@[simp] theorem Node.withPress_now (n : Node) (x : Press) : (n.withPress x).now = n.now := rfl
@[simp] theorem Node.withPress_fresh (n : Node) (x : Press) : (n.withPress x).fresh = n.fresh := rfl
@[simp] theorem Node.withPress_power (n : Node) (x : Press) : (n.withPress x).power = n.power := rfl
@[simp] theorem Node.withPress_control (n : Node) (x : Press) : (n.withPress x).control = n.control := rfl
@[simp] theorem Node.withPress_sounding (n : Node) (x : Press) : (n.withPress x).sounding = n.sounding := rfl
@[simp] theorem Node.withPress_cards (n : Node) (x : Press) : (n.withPress x).cards = n.cards := rfl
@[simp] theorem Node.withPress_hatch (n : Node) (x : Press) : (n.withPress x).hatch = n.hatch := rfl
@[simp] theorem Node.withPress_tally (n : Node) (x : Press) : (n.withPress x).tally = n.tally := rfl
@[simp] theorem Node.withPress_clock (n : Node) (x : Press) : (n.withPress x).clock = n.clock := rfl
@[simp] theorem Node.withPress_store (n : Node) (x : Press) : (n.withPress x).store = n.store := rfl
@[simp] theorem Node.withPress_log (n : Node) (x : Press) : (n.withPress x).log = n.log := rfl
@[simp] theorem Node.withPress_press (n : Node) (x : Press) : (n.withPress x).press = x := rfl
@[simp] theorem Node.withPress_line (n : Node) (x : Press) : (n.withPress x).line = n.line := rfl
@[simp] theorem Node.withPress_neighbour (n : Node) (x : Press) : (n.withPress x).neighbour = n.neighbour := rfl
@[simp] theorem Node.withPress_call (n : Node) (x : Press) : (n.withPress x).call = n.call := rfl
@[simp] theorem Node.withPress_relay (n : Node) (x : Press) : (n.withPress x).relay = n.relay := rfl

/-! ### withLine -/

@[simp] theorem Node.withLine_now (n : Node) (x : Line) : (n.withLine x).now = n.now := rfl
@[simp] theorem Node.withLine_fresh (n : Node) (x : Line) : (n.withLine x).fresh = n.fresh := rfl
@[simp] theorem Node.withLine_power (n : Node) (x : Line) : (n.withLine x).power = n.power := rfl
@[simp] theorem Node.withLine_control (n : Node) (x : Line) : (n.withLine x).control = n.control := rfl
@[simp] theorem Node.withLine_sounding (n : Node) (x : Line) : (n.withLine x).sounding = n.sounding := rfl
@[simp] theorem Node.withLine_cards (n : Node) (x : Line) : (n.withLine x).cards = n.cards := rfl
@[simp] theorem Node.withLine_hatch (n : Node) (x : Line) : (n.withLine x).hatch = n.hatch := rfl
@[simp] theorem Node.withLine_tally (n : Node) (x : Line) : (n.withLine x).tally = n.tally := rfl
@[simp] theorem Node.withLine_clock (n : Node) (x : Line) : (n.withLine x).clock = n.clock := rfl
@[simp] theorem Node.withLine_store (n : Node) (x : Line) : (n.withLine x).store = n.store := rfl
@[simp] theorem Node.withLine_log (n : Node) (x : Line) : (n.withLine x).log = n.log := rfl
@[simp] theorem Node.withLine_press (n : Node) (x : Line) : (n.withLine x).press = n.press := rfl
@[simp] theorem Node.withLine_line (n : Node) (x : Line) : (n.withLine x).line = x := rfl
@[simp] theorem Node.withLine_neighbour (n : Node) (x : Line) : (n.withLine x).neighbour = n.neighbour := rfl
@[simp] theorem Node.withLine_call (n : Node) (x : Line) : (n.withLine x).call = n.call := rfl
@[simp] theorem Node.withLine_relay (n : Node) (x : Line) : (n.withLine x).relay = n.relay := rfl

/-! ### withNeighbour -/

@[simp] theorem Node.withNeighbour_now (n : Node) (x : Neighbour) : (n.withNeighbour x).now = n.now := rfl
@[simp] theorem Node.withNeighbour_fresh (n : Node) (x : Neighbour) : (n.withNeighbour x).fresh = n.fresh := rfl
@[simp] theorem Node.withNeighbour_power (n : Node) (x : Neighbour) : (n.withNeighbour x).power = n.power := rfl
@[simp] theorem Node.withNeighbour_control (n : Node) (x : Neighbour) : (n.withNeighbour x).control = n.control := rfl
@[simp] theorem Node.withNeighbour_sounding (n : Node) (x : Neighbour) : (n.withNeighbour x).sounding = n.sounding := rfl
@[simp] theorem Node.withNeighbour_cards (n : Node) (x : Neighbour) : (n.withNeighbour x).cards = n.cards := rfl
@[simp] theorem Node.withNeighbour_hatch (n : Node) (x : Neighbour) : (n.withNeighbour x).hatch = n.hatch := rfl
@[simp] theorem Node.withNeighbour_tally (n : Node) (x : Neighbour) : (n.withNeighbour x).tally = n.tally := rfl
@[simp] theorem Node.withNeighbour_clock (n : Node) (x : Neighbour) : (n.withNeighbour x).clock = n.clock := rfl
@[simp] theorem Node.withNeighbour_store (n : Node) (x : Neighbour) : (n.withNeighbour x).store = n.store := rfl
@[simp] theorem Node.withNeighbour_log (n : Node) (x : Neighbour) : (n.withNeighbour x).log = n.log := rfl
@[simp] theorem Node.withNeighbour_press (n : Node) (x : Neighbour) : (n.withNeighbour x).press = n.press := rfl
@[simp] theorem Node.withNeighbour_line (n : Node) (x : Neighbour) : (n.withNeighbour x).line = n.line := rfl
@[simp] theorem Node.withNeighbour_neighbour (n : Node) (x : Neighbour) : (n.withNeighbour x).neighbour = x := rfl
@[simp] theorem Node.withNeighbour_call (n : Node) (x : Neighbour) : (n.withNeighbour x).call = n.call := rfl
@[simp] theorem Node.withNeighbour_relay (n : Node) (x : Neighbour) : (n.withNeighbour x).relay = n.relay := rfl

/-! ### withCall -/

@[simp] theorem Node.withCall_now (n : Node) (x : Call) : (n.withCall x).now = n.now := rfl
@[simp] theorem Node.withCall_fresh (n : Node) (x : Call) : (n.withCall x).fresh = n.fresh := rfl
@[simp] theorem Node.withCall_power (n : Node) (x : Call) : (n.withCall x).power = n.power := rfl
@[simp] theorem Node.withCall_control (n : Node) (x : Call) : (n.withCall x).control = n.control := rfl
@[simp] theorem Node.withCall_sounding (n : Node) (x : Call) : (n.withCall x).sounding = n.sounding := rfl
@[simp] theorem Node.withCall_cards (n : Node) (x : Call) : (n.withCall x).cards = n.cards := rfl
@[simp] theorem Node.withCall_hatch (n : Node) (x : Call) : (n.withCall x).hatch = n.hatch := rfl
@[simp] theorem Node.withCall_tally (n : Node) (x : Call) : (n.withCall x).tally = n.tally := rfl
@[simp] theorem Node.withCall_clock (n : Node) (x : Call) : (n.withCall x).clock = n.clock := rfl
@[simp] theorem Node.withCall_store (n : Node) (x : Call) : (n.withCall x).store = n.store := rfl
@[simp] theorem Node.withCall_log (n : Node) (x : Call) : (n.withCall x).log = n.log := rfl
@[simp] theorem Node.withCall_press (n : Node) (x : Call) : (n.withCall x).press = n.press := rfl
@[simp] theorem Node.withCall_line (n : Node) (x : Call) : (n.withCall x).line = n.line := rfl
@[simp] theorem Node.withCall_neighbour (n : Node) (x : Call) : (n.withCall x).neighbour = n.neighbour := rfl
@[simp] theorem Node.withCall_call (n : Node) (x : Call) : (n.withCall x).call = x := rfl
@[simp] theorem Node.withCall_relay (n : Node) (x : Call) : (n.withCall x).relay = n.relay := rfl

/-! ### withRelay -/

@[simp] theorem Node.withRelay_now (n : Node) (x : Relay) : (n.withRelay x).now = n.now := rfl
@[simp] theorem Node.withRelay_fresh (n : Node) (x : Relay) : (n.withRelay x).fresh = n.fresh := rfl
@[simp] theorem Node.withRelay_power (n : Node) (x : Relay) : (n.withRelay x).power = n.power := rfl
@[simp] theorem Node.withRelay_control (n : Node) (x : Relay) : (n.withRelay x).control = n.control := rfl
@[simp] theorem Node.withRelay_sounding (n : Node) (x : Relay) : (n.withRelay x).sounding = n.sounding := rfl
@[simp] theorem Node.withRelay_cards (n : Node) (x : Relay) : (n.withRelay x).cards = n.cards := rfl
@[simp] theorem Node.withRelay_hatch (n : Node) (x : Relay) : (n.withRelay x).hatch = n.hatch := rfl
@[simp] theorem Node.withRelay_tally (n : Node) (x : Relay) : (n.withRelay x).tally = n.tally := rfl
@[simp] theorem Node.withRelay_clock (n : Node) (x : Relay) : (n.withRelay x).clock = n.clock := rfl
@[simp] theorem Node.withRelay_store (n : Node) (x : Relay) : (n.withRelay x).store = n.store := rfl
@[simp] theorem Node.withRelay_log (n : Node) (x : Relay) : (n.withRelay x).log = n.log := rfl
@[simp] theorem Node.withRelay_press (n : Node) (x : Relay) : (n.withRelay x).press = n.press := rfl
@[simp] theorem Node.withRelay_line (n : Node) (x : Relay) : (n.withRelay x).line = n.line := rfl
@[simp] theorem Node.withRelay_neighbour (n : Node) (x : Relay) : (n.withRelay x).neighbour = n.neighbour := rfl
@[simp] theorem Node.withRelay_call (n : Node) (x : Relay) : (n.withRelay x).call = n.call := rfl
@[simp] theorem Node.withRelay_relay (n : Node) (x : Relay) : (n.withRelay x).relay = x := rfl

/-! ### withPower -/

@[simp] theorem Node.withPower_now (n : Node) (x : Power) : (n.withPower x).now = n.now := rfl
@[simp] theorem Node.withPower_fresh (n : Node) (x : Power) : (n.withPower x).fresh = n.fresh := rfl
@[simp] theorem Node.withPower_power (n : Node) (x : Power) : (n.withPower x).power = x := rfl
@[simp] theorem Node.withPower_control (n : Node) (x : Power) : (n.withPower x).control = n.control := rfl
@[simp] theorem Node.withPower_sounding (n : Node) (x : Power) : (n.withPower x).sounding = n.sounding := rfl
@[simp] theorem Node.withPower_cards (n : Node) (x : Power) : (n.withPower x).cards = n.cards := rfl
@[simp] theorem Node.withPower_hatch (n : Node) (x : Power) : (n.withPower x).hatch = n.hatch := rfl
@[simp] theorem Node.withPower_tally (n : Node) (x : Power) : (n.withPower x).tally = n.tally := rfl
@[simp] theorem Node.withPower_clock (n : Node) (x : Power) : (n.withPower x).clock = n.clock := rfl
@[simp] theorem Node.withPower_store (n : Node) (x : Power) : (n.withPower x).store = n.store := rfl
@[simp] theorem Node.withPower_log (n : Node) (x : Power) : (n.withPower x).log = n.log := rfl
@[simp] theorem Node.withPower_press (n : Node) (x : Power) : (n.withPower x).press = n.press := rfl
@[simp] theorem Node.withPower_line (n : Node) (x : Power) : (n.withPower x).line = n.line := rfl
@[simp] theorem Node.withPower_neighbour (n : Node) (x : Power) : (n.withPower x).neighbour = n.neighbour := rfl
@[simp] theorem Node.withPower_call (n : Node) (x : Power) : (n.withPower x).call = n.call := rfl
@[simp] theorem Node.withPower_relay (n : Node) (x : Power) : (n.withPower x).relay = n.relay := rfl

/-! ### withNow -/

@[simp] theorem Node.withNow_now (n : Node) (x : Moment) : (n.withNow x).now = x := rfl
@[simp] theorem Node.withNow_fresh (n : Node) (x : Moment) : (n.withNow x).fresh = n.fresh := rfl
@[simp] theorem Node.withNow_power (n : Node) (x : Moment) : (n.withNow x).power = n.power := rfl
@[simp] theorem Node.withNow_control (n : Node) (x : Moment) : (n.withNow x).control = n.control := rfl
@[simp] theorem Node.withNow_sounding (n : Node) (x : Moment) : (n.withNow x).sounding = n.sounding := rfl
@[simp] theorem Node.withNow_cards (n : Node) (x : Moment) : (n.withNow x).cards = n.cards := rfl
@[simp] theorem Node.withNow_hatch (n : Node) (x : Moment) : (n.withNow x).hatch = n.hatch := rfl
@[simp] theorem Node.withNow_tally (n : Node) (x : Moment) : (n.withNow x).tally = n.tally := rfl
@[simp] theorem Node.withNow_clock (n : Node) (x : Moment) : (n.withNow x).clock = n.clock := rfl
@[simp] theorem Node.withNow_store (n : Node) (x : Moment) : (n.withNow x).store = n.store := rfl
@[simp] theorem Node.withNow_log (n : Node) (x : Moment) : (n.withNow x).log = n.log := rfl
@[simp] theorem Node.withNow_press (n : Node) (x : Moment) : (n.withNow x).press = n.press := rfl
@[simp] theorem Node.withNow_line (n : Node) (x : Moment) : (n.withNow x).line = n.line := rfl
@[simp] theorem Node.withNow_neighbour (n : Node) (x : Moment) : (n.withNow x).neighbour = n.neighbour := rfl
@[simp] theorem Node.withNow_call (n : Node) (x : Moment) : (n.withNow x).call = n.call := rfl
@[simp] theorem Node.withNow_relay (n : Node) (x : Moment) : (n.withNow x).relay = n.relay := rfl

/-! ### Time -/

@[simp] theorem Node.advance_now (n : Node) (dt : Nat) : (n.advance dt).now = n.now + dt := rfl
@[simp] theorem Node.advance_fresh (n : Node) (dt : Nat) : (n.advance dt).fresh = n.fresh := rfl
@[simp] theorem Node.advance_power (n : Node) (dt : Nat) : (n.advance dt).power = n.power := rfl
@[simp] theorem Node.advance_control (n : Node) (dt : Nat) : (n.advance dt).control = n.control := rfl
@[simp] theorem Node.advance_sounding (n : Node) (dt : Nat) : (n.advance dt).sounding = n.sounding := rfl
@[simp] theorem Node.advance_cards (n : Node) (dt : Nat) : (n.advance dt).cards = n.cards := rfl
@[simp] theorem Node.advance_hatch (n : Node) (dt : Nat) : (n.advance dt).hatch = n.hatch := rfl
@[simp] theorem Node.advance_tally (n : Node) (dt : Nat) : (n.advance dt).tally = n.tally := rfl
@[simp] theorem Node.advance_clock (n : Node) (dt : Nat) : (n.advance dt).clock = n.clock := rfl
@[simp] theorem Node.advance_store (n : Node) (dt : Nat) : (n.advance dt).store = n.store := rfl
@[simp] theorem Node.advance_log (n : Node) (dt : Nat) : (n.advance dt).log = n.log := rfl
@[simp] theorem Node.advance_press (n : Node) (dt : Nat) : (n.advance dt).press = n.press := rfl
@[simp] theorem Node.advance_line (n : Node) (dt : Nat) : (n.advance dt).line = n.line := rfl
@[simp] theorem Node.advance_neighbour (n : Node) (dt : Nat) : (n.advance dt).neighbour = n.neighbour := rfl
@[simp] theorem Node.advance_call (n : Node) (dt : Nat) : (n.advance dt).call = n.call := rfl
@[simp] theorem Node.advance_relay (n : Node) (dt : Nat) : (n.advance dt).relay = n.relay := rfl

@[simp] theorem Node.reach_now (n : Node) (due : Moment) : (n.reach due).now = max n.now due := rfl
@[simp] theorem Node.reach_fresh (n : Node) (due : Moment) : (n.reach due).fresh = n.fresh := rfl
@[simp] theorem Node.reach_power (n : Node) (due : Moment) : (n.reach due).power = n.power := rfl
@[simp] theorem Node.reach_control (n : Node) (due : Moment) : (n.reach due).control = n.control := rfl
@[simp] theorem Node.reach_sounding (n : Node) (due : Moment) : (n.reach due).sounding = n.sounding := rfl
@[simp] theorem Node.reach_cards (n : Node) (due : Moment) : (n.reach due).cards = n.cards := rfl
@[simp] theorem Node.reach_hatch (n : Node) (due : Moment) : (n.reach due).hatch = n.hatch := rfl
@[simp] theorem Node.reach_tally (n : Node) (due : Moment) : (n.reach due).tally = n.tally := rfl
@[simp] theorem Node.reach_clock (n : Node) (due : Moment) : (n.reach due).clock = n.clock := rfl
@[simp] theorem Node.reach_store (n : Node) (due : Moment) : (n.reach due).store = n.store := rfl
@[simp] theorem Node.reach_log (n : Node) (due : Moment) : (n.reach due).log = n.log := rfl
@[simp] theorem Node.reach_press (n : Node) (due : Moment) : (n.reach due).press = n.press := rfl
@[simp] theorem Node.reach_line (n : Node) (due : Moment) : (n.reach due).line = n.line := rfl
@[simp] theorem Node.reach_neighbour (n : Node) (due : Moment) : (n.reach due).neighbour = n.neighbour := rfl
@[simp] theorem Node.reach_call (n : Node) (due : Moment) : (n.reach due).call = n.call := rfl
@[simp] theorem Node.reach_relay (n : Node) (due : Moment) : (n.reach due).relay = n.relay := rfl

/-! ### Who acts -/

@[simp] theorem Node.live_advance (n : Node) (dt : Nat) : (n.advance dt).live = n.live := rfl

@[simp] theorem Node.live_reach (n : Node) (due : Moment) : (n.reach due).live = n.live := rfl

theorem Node.StationRuns.advance {n : Node} (h : n.StationRuns) (dt : Nat) : (n.advance dt).StationRuns := h

theorem Node.StationActs.advance {n : Node} (h : n.StationActs) (dt : Nat) : (n.advance dt).StationActs := h

/-- A station that runs is one whose units act. -/
theorem Node.StationRuns.acts {n : Node} (h : n.StationRuns) : n.StationActs := ⟨h.1, h.2.2⟩

theorem Node.RelayRuns.advance {n : Node} (h : n.RelayRuns) (dt : Nat) : (n.advance dt).RelayRuns := h

/-- A node that is live does what its unit does. -/
theorem Node.whenLive_of {n : Node} (h : n.live = true) (f : Node → Node) : n.whenLive f = f n := by
  simp [Node.whenLive, h]

/-- A node that is not live does nothing. -/
theorem Node.whenLive_of_not {n : Node} (h : n.live = false) (f : Node → Node) : n.whenLive f = n := by
  simp [Node.whenLive, h]

/-- A station whose units act, in SAFE or not, does what its unit does. -/
theorem Node.whenStation_of_acts {n : Node} (h : n.StationActs) (f : Node → Node) : n.whenStation f = f n := by
  obtain ⟨h1, h2⟩ := h
  simp [Node.whenStation, h1, h2]

/-- A running station does what its unit does. -/
theorem Node.whenStation_of {n : Node} (h : n.StationRuns) (f : Node → Node) : n.whenStation f = f n := by
  obtain ⟨h1, -, h3⟩ := h
  simp [Node.whenStation, h1, h3]

/-- A node that is not live does nothing. -/
theorem Node.whenStation_of_not {n : Node} (h : n.live = false) (f : Node → Node) : n.whenStation f = n := by
  simp [Node.whenStation, h]

/-- A relay has none of the station's units. -/
theorem Node.whenStation_of_relay {n : Node} (h : n.control.settings.role = .relay) (f : Node → Node) :
    n.whenStation f = n := by
  simp [Node.whenStation, h]

/-- A running relay does what its unit does. -/
theorem Node.whenRelay_of {n : Node} (h : n.RelayRuns) (f : Node → Node) : n.whenRelay f = f n := by
  obtain ⟨h1, -, h3, h4⟩ := h
  simp [Node.whenRelay, h1, h3, h4]

/-- A node that is not live does nothing. -/
theorem Node.whenRelay_of_not {n : Node} (h : n.live = false) (f : Node → Node) : n.whenRelay f = n := by
  simp [Node.whenRelay, h]

/-- A command's step is its act on the node after `dt`; the queue of commands stays. -/
theorem State.perform_eq (s : State) (dt : Nat) (f : Node → Node) :
    s.perform dt f = .next ⟨f (s.node.advance dt), s.pending⟩ := rfl

/-- Two steps with one result have acted alike. -/
theorem State.perform_next {s t : State} {dt : Nat} {f : Node → Node} :
    s.perform dt f = .next t ↔ t = ⟨f (s.node.advance dt), s.pending⟩ := by
  simp [State.perform, eq_comm]

end Sys2Proof.Machine
end

