-- ==== Sys2Proof/Laws/Memory.lean ====
section
/-! SUPPORT. The cells and rows of the nonvolatile store: reading after writing, and the canonical form that every
operation keeps (R87, R88, R193). -/

namespace Sys2Proof.Machine

/-! ### One cell -/

@[simp] theorem Memory.read_nil (a : Nat) : Memory.read [] a = 0#8 := rfl

/-- An address below every listed cell reads 0. -/
theorem Memory.read_of_wfFrom {lo : Nat} {cells : List Host.Cell} (h : Memory.wfFrom lo cells = true) {a : Nat}
    (ha : a < lo) : Memory.read cells a = 0#8 := by
  induction cells generalizing lo with
  | nil => rfl
  | cons c rest ih =>
    obtain ⟨k, b⟩ := c
    simp only [Memory.wfFrom, Bool.and_eq_true, decide_eq_true_eq] at h
    have hk : k ≠ a := by omega
    simp [Memory.read, hk, ih h.2 (by omega)]

/-- The canonical form from an address on holds from any lower one. -/
theorem Memory.wfFrom_mono {lo lo' : Nat} {cells : List Host.Cell} (h : Memory.wfFrom lo cells = true)
    (hle : lo' ≤ lo) : Memory.wfFrom lo' cells = true := by
  cases cells with
  | nil => rfl
  | cons c rest =>
    obtain ⟨k, b⟩ := c
    simp only [Memory.wfFrom, Bool.and_eq_true, decide_eq_true_eq] at h ⊢
    exact ⟨⟨by omega, h.1.2⟩, h.2⟩

/-- A written byte keeps the canonical form. -/
theorem Memory.wfFrom_write {lo : Nat} {cells : List Host.Cell} (h : Memory.wfFrom lo cells = true) {a : Nat}
    (ha : lo ≤ a) (b : Byte) : Memory.wfFrom lo (Memory.write cells a b) = true := by
  induction cells generalizing lo with
  | nil =>
    by_cases hb : b = 0#8 <;> simp [Memory.write, Memory.wfFrom, hb, ha]
  | cons c rest ih =>
    obtain ⟨k, x⟩ := c
    simp only [Memory.wfFrom, Bool.and_eq_true, decide_eq_true_eq, bne_iff_ne, ne_eq] at h
    obtain ⟨⟨hk, hx⟩, hrest⟩ := h
    by_cases h1 : a < k
    · have hrest' := Memory.wfFrom_mono hrest (Nat.le_refl _)
      by_cases hb : b = 0#8
      · simp [Memory.write, h1, hb, Memory.wfFrom, hk, hx, hrest']
      · have : a + 1 ≤ k := h1
        simp [Memory.write, h1, hb, Memory.wfFrom, ha, hx, hrest', this]
    · by_cases h2 : a = k
      · subst h2
        by_cases hb : b = 0#8
        · have hlow : lo ≤ a + 1 := Nat.le_succ_of_le hk
          simp [Memory.write, hb, Memory.wfFrom_mono hrest hlow]
        · simp [Memory.write, hb, Memory.wfFrom, hk, hrest]
      · have hak : k + 1 ≤ a := by omega
        simp [Memory.write, h1, h2, Memory.wfFrom, hk, hx, ih hrest hak]

/-- A written byte keeps the canonical form. -/
theorem Memory.wf_write {cells : List Host.Cell} (h : Memory.wf cells = true) (a : Nat) (b : Byte) :
    Memory.wf (Memory.write cells a b) = true :=
  Memory.wfFrom_write h (Nat.zero_le a) b

/-- A byte reads what was last written to its address, and every other address reads as before. -/
theorem Memory.read_write {lo : Nat} {cells : List Host.Cell} (h : Memory.wfFrom lo cells = true) (a : Nat) (b : Byte)
    (x : Nat) : Memory.read (Memory.write cells a b) x = if x = a then b else Memory.read cells x := by
  induction cells generalizing lo with
  | nil =>
    by_cases hx : x = a
    · by_cases hb : b = 0#8 <;> simp [Memory.write, Memory.read, hb, hx]
    · have hax : ¬ a = x := fun e => hx e.symm
      by_cases hb : b = 0#8 <;> simp [Memory.write, Memory.read, hb, hx, hax]
  | cons c rest ih =>
    obtain ⟨k, y⟩ := c
    simp only [Memory.wfFrom, Bool.and_eq_true, decide_eq_true_eq] at h
    obtain ⟨-, hrest⟩ := h
    by_cases h1 : a < k
    · by_cases hb : b = 0#8
      · by_cases hx : x = a
        · have hk : k ≠ a := by omega
          simp [Memory.write, h1, hb, Memory.read, hx, hk, Memory.read_of_wfFrom hrest (by omega : a < k + 1)]
        · simp [Memory.write, h1, hb, hx]
      · by_cases hx : x = a
        · simp [Memory.write, h1, hb, Memory.read, hx]
        · have hax : ¬ a = x := fun e => hx e.symm
          simp [Memory.write, h1, hb, Memory.read, hx, hax]
    · by_cases h2 : a = k
      · subst h2
        by_cases hb : b = 0#8
        · by_cases hx : x = a
          · simp [Memory.write, hb, hx, Memory.read_of_wfFrom hrest (by omega : a < a + 1)]
          · have hax : ¬ a = x := fun e => hx e.symm
            simp [Memory.write, hb, Memory.read, hx, hax]
        · by_cases hx : x = a
          · simp [Memory.write, hb, Memory.read, hx]
          · have hax : ¬ a = x := fun e => hx e.symm
            simp [Memory.write, hb, Memory.read, hx, hax]
      · by_cases hkx : k = x
        · subst hkx
          have hx : ¬ k = a := fun e => h2 e.symm
          simp [Memory.write, h1, h2, Memory.read, hx]
        · simp [Memory.write, h1, h2, Memory.read, hkx, ih hrest]

/-! ### Many cells -/

/-- Bytes written keep the canonical form. -/
theorem Memory.wf_writeAll {cells : List Host.Cell} (h : Memory.wf cells = true) (a : Nat) (bytes : List Byte) :
    Memory.wf (Memory.writeAll cells a bytes) = true := by
  induction bytes generalizing cells a with
  | nil => exact h
  | cons b bs ih => exact ih (Memory.wf_write h a b) (a + 1)

/-- An address outside the bytes written reads as before. -/
theorem Memory.read_writeAll_of_outside {cells : List Host.Cell} (h : Memory.wf cells = true) (a : Nat)
    (bytes : List Byte) {x : Nat} (hx : x < a ∨ a + bytes.length ≤ x) :
    Memory.read (Memory.writeAll cells a bytes) x = Memory.read cells x := by
  induction bytes generalizing cells a with
  | nil => rfl
  | cons b bs ih =>
    have hne : x ≠ a := by simp at hx; omega
    have hout : x < a + 1 ∨ a + 1 + bs.length ≤ x := by simp at hx; omega
    rw [Memory.writeAll, ih (Memory.wf_write h a b) (a + 1) hout, Memory.read_write h, if_neg hne]

/-- The bytes written read back. -/
theorem Memory.readAll_writeAll {cells : List Host.Cell} (h : Memory.wf cells = true) (a : Nat) (bytes : List Byte) :
    Memory.readAll (Memory.writeAll cells a bytes) a bytes.length = bytes := by
  induction bytes generalizing cells a with
  | nil => rfl
  | cons b bs ih =>
    have hrest := ih (Memory.wf_write h a b) (a + 1)
    have hhead : Memory.read (Memory.writeAll (Memory.write cells a b) (a + 1) bs) a = b := by
      rw [Memory.read_writeAll_of_outside (Memory.wf_write h a b) (a + 1) bs (Or.inl (Nat.lt_succ_self a)),
        Memory.read_write h, if_pos rfl]
    simp only [Memory.writeAll, List.length_cons, Memory.readAll, hhead, hrest]

/-! ### Rows -/

/-- Placing a row write changes no cell. -/
@[simp] theorem Store.place_cells (st : Store) (now : Moment) (w : RowWrite) : (st.place now w).cells = st.cells := rfl

/-- A row that is written keeps the canonical form. -/
theorem Store.writeRow_wf {st : Store} (h : Memory.wf st.cells = true) (w : RowWrite) :
    Memory.wf (st.writeRow w).cells = true :=
  Memory.wf_writeAll h _ w.bytes

/-- The end of a program keeps the canonical form. -/
theorem Store.programmed_wf {st : Store} (h : Memory.wf st.cells = true) (now : Moment) :
    Memory.wf (st.programmed now).cells = true := by
  unfold Store.programmed
  split
  · exact h
  · exact Store.writeRow_wf h _

/-- A start or a failing supply changes no cell. -/
@[simp] theorem Store.cutOff_cells (st : Store) : st.cutOff.cells = st.cells := by
  unfold Store.cutOff
  split <;> rfl

/-- After a start or a failing supply nothing waits and nothing is being programmed. -/
@[simp] theorem Store.cutOff_staging (st : Store) : st.cutOff.staging = [] := by
  unfold Store.cutOff
  split <;> rfl

@[simp] theorem Store.cutOff_programEnds (st : Store) : st.cutOff.programEnds = none := by
  unfold Store.cutOff
  split <;> rfl

/-- A new part's store is in canonical form. -/
theorem reset_store_wf : Memory.wf State.reset.node.store.cells = true := rfl

end Sys2Proof.Machine
end

