-- ==== Sys2Proof/Laws/Ops.lean ====
section
/-! SUPPORT. What each shared operation can do, said once: the transmit queue, an offer to the line, the receive buffer, the
staging queue and its free entries, the rebuild of the tally table, the beginning of a transmission and the pseudo-random
register. -/

namespace Sys2Proof.Machine

/-! ### The transmit queue (R138, R140) -/

/-- An entry into its place: the same entries, and it. -/
theorem insertEntry_perm (e : QueueEntry) (queue : List QueueEntry) : (insertEntry e queue).Perm (e :: queue) := by
  induction queue with
  | nil => exact List.Perm.refl _
  | cons x xs ih =>
    unfold insertEntry
    split
    · exact List.Perm.refl _
    · exact (List.Perm.cons x ih).trans (List.Perm.swap e x xs)

@[simp] theorem insertEntry_length (e : QueueEntry) (queue : List QueueEntry) :
    (insertEntry e queue).length = queue.length + 1 := (insertEntry_perm e queue).length_eq

@[simp] theorem mem_insertEntry {e x : QueueEntry} {queue : List QueueEntry} :
    x ∈ insertEntry e queue ↔ x = e ∨ x ∈ queue := by
  rw [(insertEntry_perm e queue).mem_iff, List.mem_cons]

/-- The entry to be displaced waits in the queue, is of class 2 or 3, and is the newest of those (R140). -/
theorem newestDisplaceable_spec {queue : List QueueEntry} {e : QueueEntry} (h : newestDisplaceable queue = some e) :
    e ∈ queue ∧ e.displaceable = true ∧ ∀ x ∈ queue, x.displaceable = true → x.age ≤ e.age := by
  induction queue generalizing e with
  | nil => cases h
  | cons x xs ih =>
    unfold newestDisplaceable at h
    split at h
    · rename_i hnone
      have hxs : ∀ y ∈ xs, y.displaceable = false := by
        clear ih h
        induction xs with
        | nil => simp
        | cons z zs ih2 =>
          unfold newestDisplaceable at hnone
          split at hnone
          · rename_i hz
            split at hnone
            · cases hnone
            · rename_i hzd
              intro y hy
              rcases List.mem_cons.mp hy with rfl | hy
              · simpa using hzd
              · exact ih2 hz y hy
          · split at hnone <;> cases hnone
      split at h
      · rename_i hx
        obtain rfl := Option.some.inj h
        refine ⟨List.mem_cons_self, hx, ?_⟩
        intro y hy hyd
        rcases List.mem_cons.mp hy with rfl | hy
        · exact Nat.le_refl _
        · simp [hxs y hy] at hyd
      · cases h
    · rename_i w hw
      obtain ⟨hmem, hd, hmax⟩ := ih hw
      split at h
      · rename_i hc
        obtain rfl := Option.some.inj h
        simp only [Bool.and_eq_true, decide_eq_true_eq] at hc
        refine ⟨List.mem_cons_self, hc.1, ?_⟩
        intro y hy hyd
        rcases List.mem_cons.mp hy with rfl | hy
        · exact Nat.le_refl _
        · exact Nat.le_of_lt (Nat.lt_of_le_of_lt (hmax y hy hyd) hc.2)
      · rename_i hc
        obtain rfl := Option.some.inj h
        refine ⟨List.mem_cons_of_mem _ hmem, hd, ?_⟩
        intro y hy hyd
        rcases List.mem_cons.mp hy with rfl | hy
        · by_contra hlt
          exact hc (by simp [hyd]; omega)
        · exact hmax y hy hyd

/-! ### An offer to the line (R139, R140, R147) -/

/-- An offer does one of five things: nothing in SAFE, it takes the place of the waiting FILL NOTICE, it enters a queue with
a free place, it displaces the newest waiting entry of class 2 or 3, or it is refused and counted. -/
theorem Node.offer_cases (n : Node) (owner : Owner) (t : Telegram) :
    (n.control.phase = .safe ∧ n.offer owner t = (n, true)) ∨
    (t.kind = .fillNotice ∧ n.line.queue.any (·.waitingNotice) = true ∧
      n.offer owner t = (n.withLine { n.line with
        queue := n.line.queue.map (fun e => if e.waitingNotice then { e with telegram := t } else e) }, true)) ∨
    (n.queueHasRoom = true ∧ n.offer owner t = (n.enqueue owner t, true)) ∨
    (∃ e, n.queueHasRoom = false ∧ t.kind.accessClass ≤ 1 ∧ newestDisplaceable n.line.queue = some e ∧
      n.offer owner t =
        ((((n.withLine { n.line with queue := withoutAge e.age n.line.queue }).countQueueDrop).tellDisplaced
          e.owner).enqueue owner t, true)) ∨
    (n.queueHasRoom = false ∧ n.offer owner t = (n.countQueueDrop, false)) := by
  unfold Node.offer
  split
  · exact .inl ⟨‹_›, rfl⟩
  · split
    · rename_i h
      exact .inr (.inl ⟨h.1, h.2, rfl⟩)
    · split
      · exact .inr (.inr (.inl ⟨‹_›, rfl⟩))
      · rename_i hroom
        have hroom : n.queueHasRoom = false := by simpa using hroom
        split
        · rename_i hcls
          split
          · rename_i e he
            exact .inr (.inr (.inr (.inl ⟨e, hroom, hcls, he, rfl⟩)))
          · exact .inr (.inr (.inr (.inr ⟨hroom, rfl⟩)))
        · exact .inr (.inr (.inr (.inr ⟨hroom, rfl⟩)))

/-- What an offer, whatever becomes of it, leaves as it is: every unit but the line unit, the harvest in flight and the
pending status answer. -/
structure Node.SameButOffers (n m : Node) : Prop where
  now       : m.now = n.now
  fresh     : m.fresh = n.fresh
  power     : m.power = n.power
  phase     : m.control.phase = n.control.phase
  settings  : m.control.settings = n.control.settings
  sounding  : m.sounding = n.sounding
  cards     : m.cards = n.cards
  hatch     : m.hatch = n.hatch
  tally     : m.tally = n.tally
  clock     : m.clock = n.clock
  store     : m.store = n.store
  logBut    : { m.log with harvest := n.log.harvest } = n.log
  press     : m.press = n.press
  neighbour : m.neighbour = n.neighbour
  call      : m.call = n.call
  relay     : m.relay = n.relay

theorem Node.SameButOffers.refl (n : Node) : n.SameButOffers n :=
  ⟨rfl, rfl, rfl, rfl, rfl, rfl, rfl, rfl, rfl, rfl, rfl, rfl, rfl, rfl, rfl, rfl⟩

theorem Node.SameButOffers.trans {a b c : Node} (h : a.SameButOffers b) (k : b.SameButOffers c) : a.SameButOffers c where
  now := k.now.trans h.now
  fresh := k.fresh.trans h.fresh
  power := k.power.trans h.power
  phase := k.phase.trans h.phase
  settings := k.settings.trans h.settings
  sounding := k.sounding.trans h.sounding
  cards := k.cards.trans h.cards
  hatch := k.hatch.trans h.hatch
  tally := k.tally.trans h.tally
  clock := k.clock.trans h.clock
  store := k.store.trans h.store
  logBut := by
    have hk := k.logBut
    have hh := h.logBut
    rw [← hk] at hh
    simpa using hh
  press := k.press.trans h.press
  neighbour := k.neighbour.trans h.neighbour
  call := k.call.trans h.call
  relay := k.relay.trans h.relay

/-- Any change of the line unit alone leaves the rest. -/
theorem Node.sameButOffers_withLine (n : Node) (x : Line) : n.SameButOffers (n.withLine x) :=
  ⟨rfl, rfl, rfl, rfl, rfl, rfl, rfl, rfl, rfl, rfl, rfl, rfl, rfl, rfl, rfl, rfl⟩

/-- The harvest told that its telegram is finished changes itself alone. -/
theorem Node.sameButOffers_harvestFinished (n : Node) : n.SameButOffers n.harvestFinished := by
  unfold Node.harvestFinished
  split
  · exact .refl n
  · split
    · exact .refl n
    · exact ⟨rfl, rfl, rfl, rfl, rfl, rfl, rfl, rfl, rfl, rfl, rfl, rfl, rfl, rfl, rfl, rfl⟩
    · exact ⟨rfl, rfl, rfl, rfl, rfl, rfl, rfl, rfl, rfl, rfl, rfl, rfl, rfl, rfl, rfl, rfl⟩

/-- The status answer told that its part is finished changes itself alone. -/
theorem Node.sameButOffers_answerFinished (n : Node) : n.SameButOffers n.answerFinished := by
  unfold Node.answerFinished
  split
  · exact .refl n
  · split
    · exact ⟨rfl, rfl, rfl, rfl, rfl, rfl, rfl, rfl, rfl, rfl, rfl, rfl, rfl, rfl, rfl, rfl⟩
    · exact .refl n

/-- Telling the owner of a displaced entry changes the harvest or the status answer alone. -/
theorem Node.sameButOffers_tellDisplaced (n : Node) (owner : Owner) : n.SameButOffers (n.tellDisplaced owner) := by
  unfold Node.tellDisplaced
  split
  · exact n.sameButOffers_harvestFinished
  · exact n.sameButOffers_answerFinished
  · exact .refl n

/-- The frame of an offer. -/
theorem Node.sameButOffers_offer (n : Node) (owner : Owner) (t : Telegram) : n.SameButOffers (n.offer owner t).1 := by
  rcases n.offer_cases owner t with ⟨-, h⟩ | ⟨-, -, h⟩ | ⟨-, h⟩ | ⟨e, -, -, -, h⟩ | ⟨-, h⟩ <;> rw [h]
  · exact .refl n
  · exact n.sameButOffers_withLine _
  · exact n.sameButOffers_withLine _
  · exact ((n.sameButOffers_withLine _).trans (Node.sameButOffers_withLine _ _)).trans
      ((Node.sameButOffers_tellDisplaced _ _).trans (Node.sameButOffers_withLine _ _))
  · exact n.sameButOffers_withLine _

/-- The frame of an offer whose outcome its owner does not act on. -/
theorem Node.sameButOffers_offerOnly (n : Node) (owner : Owner) (t : Telegram) :
    n.SameButOffers (n.offerOnly owner t) := n.sameButOffers_offer owner t

/-- The line of a node is not changed by telling the owner of a displaced entry. -/
@[simp] theorem Node.tellDisplaced_line (n : Node) (owner : Owner) : (n.tellDisplaced owner).line = n.line := by
  unfold Node.tellDisplaced Node.harvestFinished Node.answerFinished
  repeat' split
  all_goals rfl

/-- An offer never makes the transmit queue hold more than 6 (R138, R140). -/
theorem Node.offer_queue_length (n : Node) (owner : Owner) (t : Telegram) (h : n.line.queue.length ≤ queueCapacity) :
    (n.offer owner t).1.line.queue.length ≤ queueCapacity := by
  rcases n.offer_cases owner t with ⟨-, e⟩ | ⟨-, -, e⟩ | ⟨hr, e⟩ | ⟨x, -, -, hx, e⟩ | ⟨-, e⟩ <;> rw [e]
  · exact h
  · simpa using h
  · have : n.line.queue.length < queueCapacity := by simpa [Node.queueHasRoom] using hr
    simpa [Node.enqueue] using this
  · have hlt : (withoutAge x.age n.line.queue).length < n.line.queue.length := by
      refine List.length_filter_lt_length_iff_exists.mpr ⟨x, (newestDisplaceable_spec hx).1, ?_⟩
      simp
    simp only [Node.enqueue, Node.withLine_line, insertEntry_length, Node.tellDisplaced_line, Node.countQueueDrop]
    omega
  · simpa [Node.countQueueDrop] using h

/-- An offer to a queue with a free place enters it, or replaces the waiting FILL NOTICE (R139, R140). -/
theorem Node.offerOnly_of_room {n : Node} {owner : Owner} {t : Telegram} (hs : n.control.phase ≠ .safe)
    (hk : t.kind ≠ .fillNotice) (hr : n.line.queue.length < queueCapacity) :
    n.offerOnly owner t = n.enqueue owner t := by
  simp [Node.offerOnly, Node.offer, hs, hk, Node.queueHasRoom, hr]

/-! ### The receive buffer (R144, R145) -/

/-- Taking does nothing, or hands the oldest telegram of the unit's kinds over when it is of the kind asked for. -/
theorem Node.taking_cases (n : Node) (kind : Kind) (f : Node → Received → Node) :
    n.taking kind f = n ∨
    ∃ r, oldestOf kind.taker n.line.buffer = some r ∧ r.telegram.kind = kind ∧
      n.taking kind f = f (n.withLine { n.line with buffer := withoutOldest kind.taker n.line.buffer }) r := by
  unfold Node.taking
  split
  · exact .inl rfl
  · rename_i r hr
    split
    · rename_i hk
      exact .inr ⟨r, hr, hk, rfl⟩
    · exact .inl rfl

/-- Taking hands over the oldest telegram of the unit's kinds. -/
theorem Node.taking_of {n : Node} {kind : Kind} {r : Received} (h : oldestOf kind.taker n.line.buffer = some r)
    (hk : r.telegram.kind = kind) (f : Node → Received → Node) :
    n.taking kind f = f (n.withLine { n.line with buffer := withoutOldest kind.taker n.line.buffer }) r := by
  simp [Node.taking, h, hk]

/-- The buffer without one telegram is not longer. -/
theorem withoutOldest_length_le (taker : Taker) (buffer : List Received) :
    (withoutOldest taker buffer).length ≤ buffer.length := by
  simpa [withoutOldest] using (List.eraseP_sublist (l := buffer)).length_le

/-- A telegram received never makes the buffer hold more than 4 (R145). -/
theorem Node.receive_buffer_length (n : Node) (t : Telegram) (h : n.line.buffer.length ≤ bufferCapacity) :
    (n.receive t).line.buffer.length ≤ bufferCapacity := by
  unfold Node.receive
  split
  · simp; omega
  · simpa using h

/-! ### The staging queue (R88) -/

@[simp] theorem Store.place_staging (st : Store) (now : Moment) (w : RowWrite) :
    (st.place now w).staging = st.staging ++ [w] := rfl

@[simp] theorem Store.place_torn (st : Store) (now : Moment) (w : RowWrite) : (st.place now w).torn = st.torn := rfl

@[simp] theorem Store.place_tears (st : Store) (now : Moment) (w : RowWrite) : (st.place now w).tears = st.tears := rfl

/-- A write of the log uses an entry kept for it; one of the card table uses none (R89). -/
@[simp] theorem Store.place_forLog (st : Store) (now : Moment) (w : RowWrite) :
    (st.place now w).forLog = if w.region.isLog then st.forLog - 1 else st.forLog := rfl

/-- A write of the card table uses an entry kept for it; one of the log uses none (R89). -/
@[simp] theorem Store.place_forCards (st : Store) (now : Moment) (w : RowWrite) :
    (st.place now w).forCards = if w.region.isLog then st.forCards else st.forCards - 1 := rfl

/-- A row write placed in a queue with a free entry keeps it within 4. -/
theorem Store.place_staging_length {st : Store} (h : st.hasRoom = true) (now : Moment) (w : RowWrite) :
    (st.place now w).staging.length ≤ stagingCapacity := by
  have : st.staging.length < stagingCapacity := by simpa [Store.hasRoom] using h
  simpa using this

/-- What the end of a program leaves of the queue is the queue without its oldest entry. -/
@[simp] theorem Store.programmed_staging (st : Store) (now : Moment) : (st.programmed now).staging = st.staging.tail := by
  unfold Store.programmed
  split <;> simp_all

@[simp] theorem Store.programmed_forLog (st : Store) (now : Moment) : (st.programmed now).forLog = st.forLog := by
  unfold Store.programmed
  split <;> rfl

@[simp] theorem Store.programmed_forCards (st : Store) (now : Moment) : (st.programmed now).forCards = st.forCards := by
  unfold Store.programmed
  split <;> rfl

/-! ### The free entries of the staging queue (R89) -/

/-- Once the log has nothing waiting no entry is kept for it, and the card table takes those that are free if no other was. -/
theorem Node.releaseFreed_idle {n : Node} (h : n.log.hasWork = false) (taken : Bool) :
    n.releaseFreed taken = n.withStore { n.store with
      forLog := 0
      forCards := if taken then min n.cards.rowsWaiting (stagingCapacity - n.store.staging.length)
        else n.store.forCards } := by
  simp [Node.releaseFreed, h]

/-- While the log has something waiting what is kept stays. -/
@[simp] theorem Node.releaseFreed_working {n : Node} (h : n.log.hasWork = true) (taken : Bool) :
    n.releaseFreed taken = n := by
  simp [Node.releaseFreed, h]

/-- The end of a program with nothing of the log waiting releases what was kept for it. -/
theorem Node.giveFreed_idle {n : Node} (h : n.log.hasWork = false) (taken : Bool) :
    n.giveFreed taken = n.releaseFreed taken := by
  simp [Node.giveFreed, h]

/-- With writes of the log waiting every entry that is neither taken nor the card table's is the log's, if no other was free
before; else it keeps those it had. -/
theorem Node.giveFreed_working {n : Node} (h : n.log.hasWork = true) (taken : Bool) :
    n.giveFreed taken = if taken then
      n.withStore { n.store with forLog := stagingCapacity - (n.store.staging.length + n.store.forCards) } else n := by
  cases taken <;> simp [Node.giveFreed, h]

/-- Giving out the free entries changes their two counts alone. -/
theorem Node.giveFreed_eq (n : Node) (taken : Bool) :
    n.giveFreed taken = n.withStore { n.store with
      forLog := (n.giveFreed taken).store.forLog
      forCards := (n.giveFreed taken).store.forCards } := by
  cases h : n.log.hasWork
  · rw [n.giveFreed_idle h, n.releaseFreed_idle h]; rfl
  · rw [n.giveFreed_working h]; split <;> rfl

/-- An entry that frees with no other free admits no write of the card table while the log has writes waiting. -/
theorem Node.giveFreed_taken_cards {n : Node} (h : n.log.hasWork = true) (hc : n.store.forCards = 0) :
    (n.giveFreed true).cardsAdmitted = false := by
  rw [n.giveFreed_working h]
  simp [Node.cardsAdmitted, Node.entriesForLog, h, hc]
  omega

/-- What the staging queue admits of the log (R89). -/
theorem Node.logAdmitted_iff (n : Node) :
    n.logAdmitted = true ↔ n.store.staging.length + n.store.forCards < stagingCapacity := by
  simp [Node.logAdmitted]

/-- What the staging queue admits of the card table (R89). -/
theorem Node.cardsAdmitted_iff (n : Node) :
    n.cardsAdmitted = true ↔ n.log.pair = .none ∧ n.store.staging.length + n.entriesForLog < stagingCapacity := by
  simp [Node.cardsAdmitted]

/-- No write of the card table comes between the rows of a write of the log. -/
@[simp] theorem Node.cardsAdmitted_of_pair {n : Node} (h : n.log.pair ≠ .none) : n.cardsAdmitted = false := by
  simp [Node.cardsAdmitted, h]

/-! ### The tally table and its rebuild (R72, R76) -/

/-- The stamp of a touch is the next value of the counter below its maximum (R69, R72). -/
theorem Tally.nextStamp_of_lt {t : Tally} (h : t.touches < lastTouch) : t.nextStamp = t.touches + 1 := by
  simp [Tally.nextStamp, h]

/-- Every stamp lies within the counter's range. -/
theorem Tally.nextStamp_le (t : Tally) : t.nextStamp ≤ lastTouch := by
  unfold Tally.nextStamp
  split
  · omega
  · have := (Config.touchBeyond (t.entries.map (·.stamp))).isLt
    simp only [lastTouch]
    omega

/-- The table in use is the one held, or, with the log's scan ended and the rebuild not, the one that the held records give. -/
theorem Node.tallyInUse_cases (n : Node) :
    (n.tally.rebuilt = false ∧ n.log.phase = .opened ∧
      n.tallyInUse = { n.log.held.foldl (rebuildRecord n.clock.day) n.tally with rebuilt := true }) ∨
    (¬ (n.tally.rebuilt = false ∧ n.log.phase = .opened) ∧ n.tallyInUse = n.tally) := by
  unfold Node.tallyInUse
  split
  · exact .inl ⟨(‹_ ∧ _›).1, (‹_ ∧ _›).2, rfl⟩
  · exact .inr ⟨‹_›, rfl⟩

/-- A rebuilt table is in use as it is. -/
@[simp] theorem Node.tallyInUse_of_rebuilt {n : Node} (h : n.tally.rebuilt = true) : n.tallyInUse = n.tally := by
  simp [Node.tallyInUse, h]

/-- Ending the rebuild changes the tally table alone. -/
theorem Node.endRebuild_eq (n : Node) : n.endRebuild = n.withTally n.tallyInUse := rfl

/-! ### A transmission begins (R135, R136, R150) -/

/-- A wait that runs out ends in one of two ways: the candidate, with the telegram that it held when it was taken, is in
transmission; or it has left the queue, displaced or replaced, and nothing is sent. -/
theorem Node.beginSending_cases (n : Node) (age : Nat) (taken : Telegram) :
    let waiting := n.line.queue.find? (fun e => e.age == age && !e.sending)
    (waiting.map (·.telegram) = some taken ∧ n.beginSending age taken = n.withLine { n.line with
      queue := n.line.queue.map (fun x => if x.age = age then { x with sending := true } else x)
      transmitter := .sending }) ∨
    (waiting.map (·.telegram) ≠ some taken ∧
      n.beginSending age taken = n.withLine { n.line with transmitter := .idle }) := by
  unfold Node.beginSending
  split
  · rename_i h
    exact .inr ⟨by simp [h], rfl⟩
  · rename_i e h
    by_cases ht : e.telegram = taken
    · exact .inl ⟨by simp [h, ht], by simp [ht]⟩
    · exact .inr ⟨by simp [h, ht], by simp [ht]⟩

/-- Nothing is driven on the street line unless the transmitter is sending (R136). -/
@[simp] theorem Node.lineOutput_of_not_sending {n : Node} (h : n.line.transmitter ≠ .sending) : n.lineOutput = none := by
  simp [Node.lineOutput, h]

/-! ### The pseudo-random register (R132) -/

/-- A draw lies in its range. -/
theorem Node.draw_lt (n : Node) {k : Nat} (hk : 0 < k) : (n.draw k).2 < k := Nat.mod_lt _ hk

/-- A draw changes the register alone. -/
@[simp] theorem Node.draw_fst (n : Node) (k : Nat) :
    (n.draw k).1 = n.withLine { n.line with random := randomStep n.line.random } := rfl

end Sys2Proof.Machine
end

