-- ==== Sys2Proof/WellFormed.lean ====
section
/-! DEFINITION. Which commands are well formed: the operands the node's inputs can deliver. -/

namespace Sys2Proof

/-- A reception in one sense: at least its first character, and at most the 55 characters of the longest telegram
(R130). -/
def receptionSized (chars : List HeardChar) : Bool := decide (1 ≤ chars.length ∧ chars.length ≤ 55)

/-- The configuration block is 31 bytes (R194), a reception is of 1 to 55 characters (R130), and a frame of the depot
port of 1 to 58: start character, length, up to 55 characters and the end character (R176). -/
def Instr.wellFormed : Instr → Bool
  | .powerOn _ => true
  | .resetPin _ => true
  | .restart _ => true
  | .configurationRead _ block => decide (block.length ≤ 31)
  | .soundingDue _ _ => true
  | .pingSlotStart _ => true
  | .burstEnd _ => true
  | .blankingEnd _ => true
  | .echoEdge _ => true
  | .pingWindowEnd _ => true
  | .soundingEnd _ => true
  | .periodicTimerExpiry _ => true
  | .cardRead _ _ => true
  | .readError _ => true
  | .windowExpiry _ => true
  | .lockPullInEnd _ => true
  | .deferredReleaseExpiry _ => true
  | .servicePeriodExpiry _ => true
  | .indicationExpiry _ => true
  | .buzzerToneEnd _ => true
  | .hatchSettled _ _ _ => true
  | .hatchOpen _ => true
  | .hatchClosed _ _ => true
  | .hatchStuck _ => true
  | .liftSettled _ _ _ => true
  | .lift _ => true
  | .seat _ _ => true
  | .cardUpdate _ => true
  | .add _ => true
  | .remove _ => true
  | .clear _ => true
  | .revokeAdd _ => true
  | .revokeRemove _ => true
  | .revokeClear _ => true
  | .clearRowWrite _ => true
  | .cardTableScanEnd _ => true
  | .rowProgramEnd _ => true
  | .recordAppend _ => true
  | .accountingWrite _ => true
  | .confirmMarkWrite _ => true
  | .logScanEnd _ => true
  | .harvestRequest _ => true
  | .harvestAnswer _ => true
  | .harvestConfirm _ => true
  | .tallyNotice _ => true
  | .clockSecond _ => true
  | .time _ => true
  | .pressClaim _ => true
  | .pressRelease _ => true
  | .claimEntryExpiry _ => true
  | .retryTimerExpiry _ => true
  | .inhibitTimerExpiry _ => true
  | .softStartStep _ => true
  | .loadTrip _ => true
  | .endSwitchActive _ => true
  | .forwardTimeLimit _ => true
  | .dwellEnd _ => true
  | .homeSwitchActive _ _ => true
  | .reverseTimeLimit _ => true
  | .homingDriveStart _ => true
  | .homeSwitchSettled _ _ _ => true
  | .lineIdle _ => true
  | .deferWaitEnd _ => true
  | .collision _ => true
  | .transmissionSent _ _ => true
  | .receptionEnd _ normal inverted => receptionSized normal && receptionSized inverted
  | .silenceTimerExpiry _ => true
  | .correctionTimerExpiry _ => true
  | .noticeTimerExpiry _ => true
  | .fillNotice _ => true
  | .viewEntryExpiry _ => true
  | .redirectNotice _ => true
  | .expectEntryExpiry _ => true
  | .resendTimerExpiry _ => true
  | .lapseRestExpiry _ => true
  | .holdOffExpiry _ => true
  | .callAnswer _ => true
  | .call _ => true
  | .callJoin _ => true
  | .depotFrame _ chars => decide (1 ≤ chars.length ∧ chars.length ≤ 58)
  | .depotFrameTimeout _ => true
  | .depotToLineOffer _ => true
  | .depotFrameSend _ _ => true
  | .depotFrameEnd _ => true
  | .answerTimerExpiry _ => true
  | .relayClockSecond _ => true
  | .originationTimerExpiry _ => true
  | .statusRequest _ => true
  | .statusAnswer _ => true
  | .resetPinHeld _ => true
  | .supplyFails _ => true
  | .receptionBegins _ => true
  | .homeSwitchChange _ _ => true

end Sys2Proof
end

