-- ==== Sys2Proof/Laws/PerInstr.lean ====
section
/-! SUPPORT. What a command's operands are, one lemma for each command: a command is well formed exactly when the bytes and
characters it carries are ones that its inputs can deliver. -/

namespace Sys2Proof.Laws.CommandOperands

/-- The configuration blocks a command carries (R185, R194). -/
def blocks : Instr → List (List Byte)
  | .configurationRead _ block => [block]
  | _ => []

/-- The receptions a command carries, one for each sense (R130, R133). -/
def receptions : Instr → List (List HeardChar)
  | .receptionEnd _ normal inverted => [normal, inverted]
  | _ => []

/-- The characters of the depot port that a command carries (R176). -/
def frames : Instr → List (List HeardChar)
  | .depotFrame _ chars => [chars]
  | _ => []

/-- A command is well formed exactly when its block has at most 31 bytes, each of its receptions 1 to 55 characters, and its
depot characters are 1 to 58. -/
def Statement (i : Instr) : Prop :=
  i.wellFormed = true ↔
    (∀ b ∈ blocks i, b.length ≤ 31) ∧ (∀ r ∈ receptions i, 1 ≤ r.length ∧ r.length ≤ 55) ∧
      ∀ f ∈ frames i, 1 ≤ f.length ∧ f.length ≤ 58

/-- A command that carries no bytes and no characters is always well formed. -/
theorem of_plain {i : Instr} (hw : i.wellFormed = true) (hb : blocks i = []) (hr : receptions i = [])
    (hf : frames i = []) : Statement i := by
  simp [Statement, hw, hb, hr, hf]

theorem powerOn (dt : Nat) : Statement (.powerOn dt) := of_plain rfl rfl rfl rfl

theorem resetPin (dt : Nat) : Statement (.resetPin dt) := of_plain rfl rfl rfl rfl

theorem restart (dt : Nat) : Statement (.restart dt) := of_plain rfl rfl rfl rfl

theorem configurationRead (dt : Nat) (block : List Byte) : Statement (.configurationRead dt block) := by
  simp [Statement, blocks, receptions, frames, Instr.wellFormed]

theorem soundingDue (dt : Nat) (reading : Option Int) :
    Statement (.soundingDue dt reading) := of_plain rfl rfl rfl rfl

theorem pingSlotStart (dt : Nat) : Statement (.pingSlotStart dt) := of_plain rfl rfl rfl rfl

theorem burstEnd (dt : Nat) : Statement (.burstEnd dt) := of_plain rfl rfl rfl rfl

theorem blankingEnd (dt : Nat) : Statement (.blankingEnd dt) := of_plain rfl rfl rfl rfl

theorem echoEdge (dt : Nat) : Statement (.echoEdge dt) := of_plain rfl rfl rfl rfl

theorem pingWindowEnd (dt : Nat) : Statement (.pingWindowEnd dt) := of_plain rfl rfl rfl rfl

theorem soundingEnd (dt : Nat) : Statement (.soundingEnd dt) := of_plain rfl rfl rfl rfl

theorem periodicTimerExpiry (dt : Nat) : Statement (.periodicTimerExpiry dt) := of_plain rfl rfl rfl rfl

theorem cardRead (dt : Nat) (card : CardNumber) : Statement (.cardRead dt card) := of_plain rfl rfl rfl rfl

theorem readError (dt : Nat) : Statement (.readError dt) := of_plain rfl rfl rfl rfl

theorem windowExpiry (dt : Nat) : Statement (.windowExpiry dt) := of_plain rfl rfl rfl rfl

theorem lockPullInEnd (dt : Nat) : Statement (.lockPullInEnd dt) := of_plain rfl rfl rfl rfl

theorem deferredReleaseExpiry (dt : Nat) : Statement (.deferredReleaseExpiry dt) := of_plain rfl rfl rfl rfl

theorem servicePeriodExpiry (dt : Nat) : Statement (.servicePeriodExpiry dt) := of_plain rfl rfl rfl rfl

theorem indicationExpiry (dt : Nat) : Statement (.indicationExpiry dt) := of_plain rfl rfl rfl rfl

theorem buzzerToneEnd (dt : Nat) : Statement (.buzzerToneEnd dt) := of_plain rfl rfl rfl rfl

theorem hatchSettled (dt : Nat) (isOpen : Bool) (reading : Option Int) :
    Statement (.hatchSettled dt isOpen reading) := of_plain rfl rfl rfl rfl

theorem hatchOpen (dt : Nat) : Statement (.hatchOpen dt) := of_plain rfl rfl rfl rfl

theorem hatchClosed (dt : Nat) (reading : Option Int) :
    Statement (.hatchClosed dt reading) := of_plain rfl rfl rfl rfl

theorem hatchStuck (dt : Nat) : Statement (.hatchStuck dt) := of_plain rfl rfl rfl rfl

theorem liftSettled (dt : Nat) (isLifted : Bool) (reading : Option Int) :
    Statement (.liftSettled dt isLifted reading) := of_plain rfl rfl rfl rfl

theorem lift (dt : Nat) : Statement (.lift dt) := of_plain rfl rfl rfl rfl

theorem seat (dt : Nat) (reading : Option Int) : Statement (.seat dt reading) := of_plain rfl rfl rfl rfl

theorem cardUpdate (dt : Nat) : Statement (.cardUpdate dt) := of_plain rfl rfl rfl rfl

theorem add (dt : Nat) : Statement (.add dt) := of_plain rfl rfl rfl rfl

theorem remove (dt : Nat) : Statement (.remove dt) := of_plain rfl rfl rfl rfl

theorem clear (dt : Nat) : Statement (.clear dt) := of_plain rfl rfl rfl rfl

theorem revokeAdd (dt : Nat) : Statement (.revokeAdd dt) := of_plain rfl rfl rfl rfl

theorem revokeRemove (dt : Nat) : Statement (.revokeRemove dt) := of_plain rfl rfl rfl rfl

theorem revokeClear (dt : Nat) : Statement (.revokeClear dt) := of_plain rfl rfl rfl rfl

theorem clearRowWrite (dt : Nat) : Statement (.clearRowWrite dt) := of_plain rfl rfl rfl rfl

theorem cardTableScanEnd (dt : Nat) : Statement (.cardTableScanEnd dt) := of_plain rfl rfl rfl rfl

theorem rowProgramEnd (dt : Nat) : Statement (.rowProgramEnd dt) := of_plain rfl rfl rfl rfl

theorem recordAppend (dt : Nat) : Statement (.recordAppend dt) := of_plain rfl rfl rfl rfl

theorem accountingWrite (dt : Nat) : Statement (.accountingWrite dt) := of_plain rfl rfl rfl rfl

theorem confirmMarkWrite (dt : Nat) : Statement (.confirmMarkWrite dt) := of_plain rfl rfl rfl rfl

theorem logScanEnd (dt : Nat) : Statement (.logScanEnd dt) := of_plain rfl rfl rfl rfl

theorem harvestRequest (dt : Nat) : Statement (.harvestRequest dt) := of_plain rfl rfl rfl rfl

theorem harvestAnswer (dt : Nat) : Statement (.harvestAnswer dt) := of_plain rfl rfl rfl rfl

theorem harvestConfirm (dt : Nat) : Statement (.harvestConfirm dt) := of_plain rfl rfl rfl rfl

theorem tallyNotice (dt : Nat) : Statement (.tallyNotice dt) := of_plain rfl rfl rfl rfl

theorem clockSecond (dt : Nat) : Statement (.clockSecond dt) := of_plain rfl rfl rfl rfl

theorem time (dt : Nat) : Statement (.time dt) := of_plain rfl rfl rfl rfl

theorem pressClaim (dt : Nat) : Statement (.pressClaim dt) := of_plain rfl rfl rfl rfl

theorem pressRelease (dt : Nat) : Statement (.pressRelease dt) := of_plain rfl rfl rfl rfl

theorem claimEntryExpiry (dt : Nat) : Statement (.claimEntryExpiry dt) := of_plain rfl rfl rfl rfl

theorem retryTimerExpiry (dt : Nat) : Statement (.retryTimerExpiry dt) := of_plain rfl rfl rfl rfl

theorem inhibitTimerExpiry (dt : Nat) : Statement (.inhibitTimerExpiry dt) := of_plain rfl rfl rfl rfl

theorem softStartStep (dt : Nat) : Statement (.softStartStep dt) := of_plain rfl rfl rfl rfl

theorem loadTrip (dt : Nat) : Statement (.loadTrip dt) := of_plain rfl rfl rfl rfl

theorem endSwitchActive (event : EndSwitchEvent) : Statement (.endSwitchActive event) := of_plain rfl rfl rfl rfl

theorem forwardTimeLimit (dt : Nat) : Statement (.forwardTimeLimit dt) := of_plain rfl rfl rfl rfl

theorem dwellEnd (dt : Nat) : Statement (.dwellEnd dt) := of_plain rfl rfl rfl rfl

theorem homeSwitchActive (dt : Nat) (reading : Option Int) :
    Statement (.homeSwitchActive dt reading) := of_plain rfl rfl rfl rfl

theorem reverseTimeLimit (dt : Nat) : Statement (.reverseTimeLimit dt) := of_plain rfl rfl rfl rfl

theorem homingDriveStart (dt : Nat) : Statement (.homingDriveStart dt) := of_plain rfl rfl rfl rfl

theorem homeSwitchSettled (dt : Nat) (isActive : Bool) (reading : Option Int) :
    Statement (.homeSwitchSettled dt isActive reading) := of_plain rfl rfl rfl rfl

theorem lineIdle (dt : Nat) : Statement (.lineIdle dt) := of_plain rfl rfl rfl rfl

theorem deferWaitEnd (dt : Nat) : Statement (.deferWaitEnd dt) := of_plain rfl rfl rfl rfl

theorem collision (dt : Nat) : Statement (.collision dt) := of_plain rfl rfl rfl rfl

theorem transmissionSent (dt : Nat) (supplyLow : Bool) :
    Statement (.transmissionSent dt supplyLow) := of_plain rfl rfl rfl rfl

theorem receptionEnd (dt : Nat) (normal : List HeardChar) (inverted : List HeardChar) :
    Statement (.receptionEnd dt normal inverted) := by
  simp [Statement, blocks, receptions, frames, Instr.wellFormed, receptionSized]

theorem silenceTimerExpiry (dt : Nat) : Statement (.silenceTimerExpiry dt) := of_plain rfl rfl rfl rfl

theorem correctionTimerExpiry (dt : Nat) : Statement (.correctionTimerExpiry dt) := of_plain rfl rfl rfl rfl

theorem noticeTimerExpiry (dt : Nat) : Statement (.noticeTimerExpiry dt) := of_plain rfl rfl rfl rfl

theorem fillNotice (dt : Nat) : Statement (.fillNotice dt) := of_plain rfl rfl rfl rfl

theorem viewEntryExpiry (dt : Nat) : Statement (.viewEntryExpiry dt) := of_plain rfl rfl rfl rfl

theorem redirectNotice (dt : Nat) : Statement (.redirectNotice dt) := of_plain rfl rfl rfl rfl

theorem expectEntryExpiry (dt : Nat) : Statement (.expectEntryExpiry dt) := of_plain rfl rfl rfl rfl

theorem resendTimerExpiry (dt : Nat) : Statement (.resendTimerExpiry dt) := of_plain rfl rfl rfl rfl

theorem lapseRestExpiry (dt : Nat) : Statement (.lapseRestExpiry dt) := of_plain rfl rfl rfl rfl

theorem holdOffExpiry (dt : Nat) : Statement (.holdOffExpiry dt) := of_plain rfl rfl rfl rfl

theorem callAnswer (dt : Nat) : Statement (.callAnswer dt) := of_plain rfl rfl rfl rfl

theorem call (dt : Nat) : Statement (.call dt) := of_plain rfl rfl rfl rfl

theorem callJoin (dt : Nat) : Statement (.callJoin dt) := of_plain rfl rfl rfl rfl

theorem depotFrame (dt : Nat) (chars : List HeardChar) : Statement (.depotFrame dt chars) := by
  simp [Statement, blocks, receptions, frames, Instr.wellFormed]

theorem depotFrameTimeout (dt : Nat) : Statement (.depotFrameTimeout dt) := of_plain rfl rfl rfl rfl

theorem depotToLineOffer (dt : Nat) : Statement (.depotToLineOffer dt) := of_plain rfl rfl rfl rfl

theorem depotFrameSend (dt : Nat) (cts : Bool) : Statement (.depotFrameSend dt cts) := of_plain rfl rfl rfl rfl

theorem depotFrameEnd (dt : Nat) : Statement (.depotFrameEnd dt) := of_plain rfl rfl rfl rfl

theorem answerTimerExpiry (dt : Nat) : Statement (.answerTimerExpiry dt) := of_plain rfl rfl rfl rfl

theorem relayClockSecond (dt : Nat) : Statement (.relayClockSecond dt) := of_plain rfl rfl rfl rfl

theorem originationTimerExpiry (dt : Nat) : Statement (.originationTimerExpiry dt) := of_plain rfl rfl rfl rfl

theorem statusRequest (dt : Nat) : Statement (.statusRequest dt) := of_plain rfl rfl rfl rfl

theorem statusAnswer (dt : Nat) : Statement (.statusAnswer dt) := of_plain rfl rfl rfl rfl

theorem resetPinHeld (dt : Nat) : Statement (.resetPinHeld dt) := of_plain rfl rfl rfl rfl

theorem supplyFails (dt : Nat) : Statement (.supplyFails dt) := of_plain rfl rfl rfl rfl

theorem receptionBegins (dt : Nat) : Statement (.receptionBegins dt) := of_plain rfl rfl rfl rfl

theorem homeSwitchChange (dt : Nat) (isActive : Bool) :
    Statement (.homeSwitchChange dt isActive) := of_plain rfl rfl rfl rfl

end Sys2Proof.Laws.CommandOperands
end

