-- ==== Sys2Proof/Laws/Safety.lean ====
section
/-! SUPPORT. What joins the statements' predicates (Safety.lean) to the operations of the units: the sounding request, the
abandoned sounding, the deferred start, and the comparison of notices. -/

namespace Sys2Proof.Machine

/-- Arming for a moment that is still to come (R19), in every phase but STOPPED. -/
theorem Sounding.arm_eq_armedFor {u : Sounding} {now due : Moment} (hs : u.phase ≠ .stopped) (hd : now < due)
    (start repeats : Bool) : u.arm now due start repeats = u.armedFor due start repeats := by
  have later : ∀ x : Nat, now < max x due := fun x => lt_of_lt_of_le hd (le_max_right x due)
  unfold Sounding.arm Sounding.armedFor
  rw [if_neg hs]
  cases hp : u.phase <;> cases hr : u.request <;> simp_all [mergeRequest, armedPhase]

/-- Abandoning the sounding in flight (R22) changes the sounding unit alone. -/
theorem Node.abandonSounding_eq (n : Node) : n.abandonSounding = n.withSounding (n.sounding.abandonedAt n.now) := by
  unfold Node.abandonSounding Sounding.abandonedAt
  cases n.sounding.flight with
  | none => rfl
  | some f =>
    refine congrArg n.withSounding (Sounding.arm_eq_armedFor ?_ ?_ _ _)
    · simp
    · exact Nat.lt_add_of_pos_right (by decide)

/-- Trying a request again (R21) changes the sounding unit alone. -/
theorem Node.trySounding_eq (n : Node) (reading : Option Int) :
    n.trySounding reading = n.withSounding (n.sounding.triedAt n.now (n.soundingDeferred = false) reading) := by
  unfold Node.trySounding Sounding.triedAt
  cases hr : n.sounding.request with
  | none => rfl
  | some r =>
    by_cases h : (n.sounding.phase = .waiting ∨ n.sounding.phase = .held) ∧ r.due ≤ n.now
    · cases hd : n.soundingDeferred <;> simp [h, hr, Sounding.begin]
    · simp [h]; rfl

/-- Two binary numerals with their lowest digits apart. -/
theorem lowest_digit (x y : Bool) (m k : Nat) : x.toNat + 2 * m = y.toNat + 2 * k ↔ x = y ∧ m = k := by
  cases x <;> cases y <;> simp <;> omega

/-- The flags byte of a notice as a binary numeral (12.1). -/
theorem NoticeContent.flags_eq (c : NoticeContent) : c.flags = c.full.toNat + 2 * (c.sensorFault.toNat +
    2 * (c.pressFault.toNat + 2 * (c.outOfService.toNat + 2 * (c.hatchStuck.toNat + 2 * (c.service.toNat + 2 * 0))))) := by
  have digit : ∀ (x : Bool) (k : Nat), bit x k = 2 ^ k * x.toNat := by
    intro x k
    cases x <;> simp [bit]
  unfold NoticeContent.flags
  simp only [digit]
  omega

/-- The flags byte of a notice tells its six flags apart (12.1). -/
theorem NoticeContent.flags_inj {c d : NoticeContent} : c.flags = d.flags ↔ c.full = d.full ∧ c.sensorFault = d.sensorFault ∧
    c.pressFault = d.pressFault ∧ c.outOfService = d.outOfService ∧ c.hatchStuck = d.hatchStuck ∧ c.service = d.service := by
  simp only [NoticeContent.flags_eq, lowest_digit, and_true]

/-- The unit's comparison (R150) is the one the statements speak of. -/
theorem NoticeContent.differs_iff (c last : NoticeContent) : c.differs last = true ↔ c.CallsForNotice last := by
  have fills : fillsDiffer c.fill last.fill = true ↔ (match c.fill, last.fill with
      | some a, some b => 50 ≤ (a - b) + (b - a)
      | none, none => False
      | some _, none => True
      | none, some _ => True) := by
    cases c.fill with
    | none => cases last.fill <;> simp [fillsDiffer]
    | some a =>
      cases last.fill with
      | none => simp [fillsDiffer]
      | some b =>
        have gap : absDiff a b = (a - b) + (b - a) := by
          unfold absDiff
          split <;> omega
        simp [fillsDiffer, gap]
  unfold NoticeContent.differs NoticeContent.CallsForNotice
  rw [Bool.or_eq_true, Bool.or_eq_true, fills, bne_iff_ne, bne_iff_ne, ne_eq c.flags, NoticeContent.flags_inj]
  tauto

end Sys2Proof.Machine
end

