-- ==== Sys2Proof/Tests/Slice0.lean ====
section
/-! SUPPORT. The model's own tests. `smoke_` theorems show that each check of `Instr.wellFormed` refuses an ill-formed
command; `test_` theorems are worked cases of the spec on one operation or one step; `witness_` theorems show states and
operands that meet the hypotheses of the statements, clause by clause. -/

open Sys2Proof Sys2Proof.Machine

namespace Sys2Proof.Tests

/-! ### States the tests share -/

/-- The configuration of the worked cases of 01 and 08. -/
def settings : Settings := { Settings.unread with
  address := some 7, island := 3, position := 120, pressLimit := 1, pressStart := 6, pressEnd := 22
  pressThreshold := 600, pingCount := 5, blanking := 1200, e0 := 2600, f0 := 400, fullThreshold := 950
  callThreshold := 800, joinThreshold := 700, joinRadius := 50, bagIncrement := 12, baseRate := 40 }

/-- A resident's card: every right, allowance 5, band 2. -/
def resident : CardRecord := ⟨1, .resident, 31, 5, 2, .valid⟩

/-- A crew card. -/
def crew : CardRecord := ⟨2, .crew, 0, 0, 0, .valid⟩

/-- A table with the two cards, and card number 99 revoked. -/
def cards : Cards := { Cards.start with
  phase := .opened, slots := [(4, resident), (8, crew)], revoked := [(0, 99)], entries := 2, revocations := 1
  checkValue := recordCrc resident + recordCrc crew }

/-- A hatch that is closed, with the insert seated, in a station that is READY. -/
def hatch : Hatch := { Hatch.start with
  station := .ready, conditionsMet := true, hatch := .closed, lift := .seated, firstSounding := true }

/-- A station at rest, 1,000 s after its start. -/
def station : Node := { Node.reset with
  now := 1000000000
  control := ⟨.running, settings, false, .power, none⟩
  sounding := { Sounding.start 0 with phase := .idle, fill := some 402, request := none, last := some .accepted }
  cards := cards
  hatch := hatch
  tally := { Tally.start with rebuilt := true }
  clock := ⟨20, some 36000, none⟩
  log := { Log.start with phase := .opened, accounting := { Accounting.initial with day := 20, next := 1 } }
  press := { Press.start 0 with state := .home, homeSwitch := .active, endSwitch := .inactive }
  line := { Line.start with polarity := .normal }
  neighbour := { Neighbour.start with phase := .active } }

/-- A relay at rest. -/
def relay : Node := { Node.reset with
  now := 1000000000
  control := ⟨.running, { Settings.unread with role := .relay, address := some 230, island := 1 }, false, .power, none⟩
  line := { Line.start with polarity := .normal }
  relay := { Relay.start with phase := .running, rts := true } }

/-- The node after one step with the command in front of its queue. -/
def after (n : Node) (c : Instr) : Node :=
  match step ⟨n, [c]⟩ with
  | .next s => s.node
  | .fault _ => n
  | .refused _ => n

/-- The station with another sounding unit. -/
def sounds (u : Sounding) : Node := station.withSounding u

/-- The station with another hatch controller. -/
def hatches (h : Hatch) : Node := station.withHatch h

/-- The station with another press unit. -/
def presses (p : Press) : Node := station.withPress p

/-- A node with one telegram of station 9 on island 3 in its receive buffer. -/
def hearing (n : Node) (kind : Kind) (payload : List Byte) : Node :=
  n.withLine { n.line with buffer := [⟨⟨kind, 9, 3, 0, payload⟩, 999999000⟩] }

/-- The station in SAFE with a hatch controller. -/
def inSafe (h : Hatch) : Node := { station with
  control := { station.control with phase := .safe }
  sounding := { station.sounding with phase := .stopped, fill := none, last := none }
  press := { station.press with state := .stopped }
  hatch := { h with station := .safe } }

/-- The station with writes of the log waiting, and free entries that were kept for them as they freed. -/
def kept (n : Node) (forLog : Nat) : Node :=
  (n.withStore { n.store with forLog := forLog }).withLog { n.log with due := true }

/-- The station with a CARD UPDATE being worked. -/
def working (ops : List (Nat × CardOp)) : Node := station.withCards { cards with update := some ⟨ops, true⟩ }

/-- A telegram of the station in its transmit queue. -/
def queued (kind : Kind) (payload : List Byte) (sending : Bool) (collisions : Nat) (owner : Owner) : QueueEntry :=
  ⟨station.telegram kind 0 payload, kind.accessClass, 0, collisions, sending, owner⟩

/-- The station with these entries in its transmit queue. -/
def queueing (queue : List QueueEntry) (transmitter : Transmitter) : Node :=
  station.withLine { station.line with queue := queue, nextAge := 1, transmitter := transmitter }

/-- The node with a last notice of its present content but for the fill. -/
def noticed (n : Node) (fill : Option Nat) : Node :=
  n.withNeighbour { n.neighbour with last := some { n.noticeContent with fill := fill } }

/-- The node with deposits since its last cycle, and the press threshold at a fill. -/
def loaded (n : Node) (deposits threshold : Nat) : Node :=
  (n.withPress { n.press with deposits := deposits }).withControl
    { n.control with settings := { n.control.settings with pressThreshold := threshold } }

/-- A record of the log. -/
def record (seq : Sequence) : LogRecord :=
  ⟨seq, ⟨.deposit 1 40 false false false, 20, some 18000, .residual, some 402⟩, false⟩

/-- The station with these records held. -/
def holding (held : List LogRecord) (next : Sequence) : Node :=
  station.withLog { station.log with held := held, accounting := { station.log.accounting with next := next } }

/-- Characters with good stop bits. -/
def heard (bytes : List Byte) : List HeardChar := bytes.map (fun b => ⟨b, true⟩)

/-! ### Ill-formed commands are refused -/

theorem smoke_block_too_long : (Instr.configurationRead 0 (List.replicate 32 0#8)).wellFormed = false := by decide

theorem smoke_block_of_31 : (Instr.configurationRead 0 (List.replicate 31 0#8)).wellFormed = true := by decide

theorem smoke_reception_empty : (Instr.receptionEnd 0 [] (heard [1])).wellFormed = false := by decide

theorem smoke_reception_empty_inverted : (Instr.receptionEnd 0 (heard [1]) []).wellFormed = false := by decide

theorem smoke_reception_too_long : (Instr.receptionEnd 0 (heard (List.replicate 56 0#8)) (heard [1])).wellFormed = false := by
  decide

theorem smoke_reception_too_long_inverted :
    (Instr.receptionEnd 0 (heard [1]) (heard (List.replicate 56 0#8))).wellFormed = false := by decide

theorem smoke_frame_empty : (Instr.depotFrame 0 []).wellFormed = false := by decide

theorem smoke_frame_too_long : (Instr.depotFrame 0 (heard (List.replicate 59 0#8))).wellFormed = false := by decide

theorem smoke_no_word_spells_a_command : decodeTableWord 16 0xFFFF = none := rfl

/-! ### The block as a whole -/

theorem witness_EveryCommandGoesForward : Node.reset.live = false ∧ (∀ dt, Instr.lift 0 ≠ .powerOn dt) ∧
    (∀ dt, Instr.lift 0 ≠ .resetPin dt) ∧ (∀ dt, Instr.lift 0 ≠ .resetPinHeld dt) ∧
    (∀ dt, Instr.lift 0 ≠ .supplyFails dt) ∧ ∀ dt block, Instr.lift 0 ≠ .configurationRead dt block :=
  ⟨by decide, nofun, nofun, nofun, nofun, nofun⟩

theorem witness_live_states : station.StationRuns ∧ relay.RelayRuns ∧ (inSafe hatch).StationActs := by decide

/-! ### Sounding (01) -/

/-- R9's table of speeds. -/
theorem test_speed_of_sound_table :
    [(-30 : Int), -25, -5, 0, 8, 15, 25, 60].map speedOfSound = [3131, 3161, 3283, 3313, 3361, 3404, 3465, 3677] := by
  decide

/-- R4's examples, and the ends of the accepted range. -/
theorem test_temperatures :
    [some (-41 : Int), some (-40), some (-35), some 70, some 85, some 86, none].map soundingTemperature =
      [15, -30, -30, 60, 60, 15, 15] := by decide

/-- R8's table of medians. -/
theorem test_median_table :
    [[some 10140, some 10100], [some 10140, none, some 10100, some 10120],
      [some 10100, some 10120, some 10130, some 10140], [some 10130, some 10100, some 10140, some 10120, some 10100],
      [some 10100, some 10100, some 10120, some 10130, some 10140, some 10150],
      [some 10100, some 10100, some 10120, some 10130, some 10140, some 10150, some 10160]].map
        (fun r => medianOf (validPings r)) = [10100, 10120, 10120, 10120, 10120, 10130] := by decide

/-- The worked case of 1.3: distance 1,659 mm and fill 427‰. -/
theorem test_distance_and_fill :
    distanceOf 9875 3361 = 1659 ∧ measuredFill 2600 400 1659 = 427 ∧ distanceOf 9877 3361 = 1660 ∧
      measuredFill 2600 400 1660 = 427 := by decide

/-- A sounding in its fifth slot, with the results of the worked case of 1.3. -/
def fifthSlot : Sounding := { station.sounding with
  phase := .inFlight
  flight := some ⟨false, false, 8, [some 9840, some 9910, none, some 9875], some 999000000,
    some ⟨999240000, false, .over, some 12400⟩⟩ }

/-- The worked case of 1.3: UNSTEADY, fill 427, and a repeat 30 s after the end. -/
theorem test_soundingEnd_unsteady :
    (after (sounds fifthSlot) (.soundingEnd 0)).sounding.fill = some 427 ∧
      (after (sounds fifthSlot) (.soundingEnd 0)).sounding.last = some .unsteady ∧
      (after (sounds fifthSlot) (.soundingEnd 0)).sounding.request = some ⟨1030000000, false, true⟩ := by decide

/-- R13: the third failure sets SENSOR FAULT, and the fill stays. -/
theorem test_soundingEnd_failed :
    (after (sounds { fifthSlot with
      failures := 2
      flight := some ⟨false, false, 8, [none, some 9, none, none], some 999000000, some ⟨0, false, .over, some 12⟩⟩ })
        (.soundingEnd 0)).sounding =
      { station.sounding with failures := 3, sensorFault := true, last := some .failed, periodic := some 2800000000 } := by
  decide

theorem witness_SoundingRequestComesDue_due :
    (sounds { station.sounding with phase := .waiting, request := some ⟨1000000005, false, true⟩ }).StationRuns ∧
      (sounds { station.sounding with phase := .waiting, request := some ⟨1000000005, false, true⟩ }).sounding.phase =
        .waiting := by decide

theorem witness_SoundingRequestComesDue_periodic :
    (sounds { station.sounding with periodic := some 7 }).StationRuns ∧
      (sounds { station.sounding with periodic := some 7 }).sounding.periodic = some 7 ∧
      (sounds { station.sounding with periodic := some 7 }).sounding.phase ≠ .stopped := by decide

theorem witness_SpeedDistanceAndFillOfAPing :
    ((-41 : Int) < -40 ∧ 85 < (86 : Int) ∧ -40 ≤ (85 : Int)) ∧ (-30 ≤ (60 : Int) ∧ (60 : Int) ≤ 60) ∧
      (24000 ≤ 24000 ∧ 3677 ≤ 3677) ∧ (100 ≤ 100 ∧ 500 ≤ 4000 ∧ 100 + 200 ≤ 500) ∧
      (500 ≤ 500 ∧ 100 ≤ 100 ∧ 100 < 101 ∧ 101 < 500) := by decide

theorem witness_PingSlotRunsItsCourse_start :
    (sounds { fifthSlot with flight := some ⟨true, false, 15, [], none, none⟩ }).StationRuns ∧
      ([] : List (Option Nat)).length + (if (none : Option PingSlot).isSome then 1 else 0) <
        station.control.settings.pingCount := by decide

theorem witness_PingSlotRunsItsCourse_slot :
    (sounds fifthSlot).StationRuns ∧ (sounds fifthSlot).sounding.flight.isSome = true ∧
      (PingSlot.mk 0 true .blanking none).driving = true ∧ (PingSlot.mk 0 true .blanking none).watch = .blanking ∧
      (PingSlot.mk 0 false .watching none).watch = .watching := by decide

/-- R5: an edge at exactly 24,000 µs counts, and a later one does not. -/
theorem test_echoEdge_at_the_end :
    let slot (began : Moment) := sounds { fifthSlot with
      flight := some ⟨false, false, 8, [], some began, some ⟨began, false, .watching, none⟩⟩ }
    ((after (slot 1000000000) (.echoEdge 24000)).sounding.flight.bind (·.slot)).bind (·.echo) = some 24000 ∧
      after (slot 1000000000) (.echoEdge 24001) = (slot 1000000000).advance 24001 := by decide +kernel

theorem witness_MedianAndSpreadOfValidPings :
    let valid := [some 5, none, some 5, some 2].filterMap id
    settings.pingCount = 5 ∧ ([some 5, none, some 2].filterMap id).length < (settings.pingCount + 1) / 2 ∧
      (settings.pingCount + 1) / 2 ≤ valid.length ∧ 2 ∈ valid ∧ 5 ∈ valid ∧ ∀ x ∈ valid, 2 ≤ x ∧ x ≤ 5 := by decide

/-- The station at the end of a sounding, after a notice that told a fill. -/
def soundingTold (told : Nat) : Node := noticed (sounds fifthSlot) (some told)

/-- A fill of 402 does not call for a notice after one that told 377, nor after one that told 402. -/
theorem witness_NoticeLaw (told : Nat) (h : told = 377 ∨ told = 402) : (soundingTold told).NoticeLaw := by
  refine ⟨fun _ => ⟨{ (soundingTold told).noticeContent with fill := some told }, rfl, ?_⟩, nofun⟩
  rw [← NoticeContent.differs_iff]
  rcases h with rfl | rfl <;> decide

theorem witness_SoundingEndTakesTheResult :
    let n := soundingTold 402
    n.StationRuns ∧ n.NoticeLaw ∧
      n.sounding.flight.map (fun f => (f.firstBurst, f.results.length + if f.slot.isSome then 1 else 0)) =
        some (some 999000000, n.control.settings.pingCount) :=
  ⟨by decide, witness_NoticeLaw 402 (.inr rfl), by decide⟩

/-- The station in STARTING, with the last condition the end of the first sounding, and the call threshold at the fill. -/
def lastCondition (callThreshold : Nat) : Node :=
  let n := (sounds fifthSlot).withHatch { hatch with station := .starting, conditionsMet := false, firstSounding := false }
  (n.withControl { n.control with settings := { settings with callThreshold := callThreshold } }).withNeighbour Neighbour.start

theorem witness_SoundingEndTakesTheResult_starts_law : (lastCondition 427).NoticeLaw := ⟨nofun, nofun⟩

theorem witness_SoundingEndTakesTheResult_starts :
    let n := lastCondition 427
    n.StationRuns ∧ n.neighbour.phase = .silent ∧ n.hatch.station = .starting ∧ n.cards.phase ≠ .scanning ∧ n.log.phase = .opened ∧
      n.pressHome = true ∧ n.call.stopped = false ∧ n.call.state = .none ∧ n.control.settings.callThreshold ≤ 427 := by decide

/-- R45, R161: with the first sounding the station is READY, and a fill at the call threshold raises a call. -/
theorem test_soundingEnd_starts :
    (after (lastCondition 427) (.soundingEnd 0)).hatch.station = .ready ∧
      (after (lastCondition 427) (.soundingEnd 0)).call.tag = some 1 ∧
      (after (lastCondition 428) (.soundingEnd 0)).call = Call.start := by decide +kernel

theorem witness_SoundingEndTakesTheResult_follows_law : (loaded (soundingTold 377) 4 427).NoticeLaw :=
  ⟨(witness_NoticeLaw 377 (.inl rfl)).current, nofun⟩

theorem witness_SoundingEndTakesTheResult_follows :
    let n := loaded (soundingTold 377) 4 427
    n.StationRuns ∧ n.neighbour.phase = .active ∧ n.neighbour.last.isSome = true ∧ n.control.phase ≠ .safe ∧
      n.line.queue.length ≤ 2 ∧ n.control.settings.pressFitted = true ∧ n.press.state = .home ∧ n.press.retry = none ∧
      n.hatch.station = .ready ∧ 4 ≤ n.press.deposits ∧ n.inPressHours = true ∧ n.hatch.phase = .idle ∧
      n.hatch.hatch = .closed ∧ n.hatch.lift = .seated := by decide

/-- R112, R150: the fill 427 claims at a threshold of 427 and not of 428, and is told when the last notice told 377, and not
when it told 378. -/
theorem test_soundingEnd_follows :
    let ended (told threshold : Nat) := after (loaded (soundingTold told) 4 threshold) (.soundingEnd 0)
    (ended 377 427).press.state = .claiming ∧ (ended 377 428).press.state = .home ∧
      (ended 377 428).neighbour.last.map (·.fill) = some (some 427) ∧
      (ended 378 428).neighbour.last.map (·.fill) = some (some 378) := by decide +kernel

/-- R150: fills 50‰ apart call for a notice, and fills 49‰ apart do not. -/
theorem witness_CallsForNotice :
    (sounds fifthSlot).noticeContent.CallsForNotice { (sounds fifthSlot).noticeContent with fill := some 352 } ∧
      ¬ (sounds fifthSlot).noticeContent.CallsForNotice { (sounds fifthSlot).noticeContent with fill := some 353 } := by
  rw [← NoticeContent.differs_iff, ← NoticeContent.differs_iff]
  decide

/-! ### Card table (02) -/

/-- The check value of R130's telegrams and of R193's rows over the nine digits. -/
theorem test_check_values :
    crc16 [0x31, 0x32, 0x33, 0x34, 0x35, 0x36, 0x37, 0x38, 0x39] = 0x29B1#16 ∧
      crc8 [0x31, 0x32, 0x33, 0x34, 0x35, 0x36, 0x37, 0x38, 0x39] = 0xF4#8 := by decide +kernel

/-- A CARD UPDATE telegram of one operation (12.1). -/
def updateOf (payload : List Byte) : Node := hearing station .cardUpdate payload

theorem witness_CardUpdateIsTakenInOrder_waits :
    (working [(1, .clear)]).StationRuns ∧ (working [(1, .clear)]).cards.update.isSome = true := by decide

theorem witness_CardUpdateIsTakenInOrder_taken :
    (updateOf [2, 1, 0, 0, 0]).StationRuns ∧ (updateOf [2, 1, 0, 0, 0]).cards.phase = .opened ∧
      (updateOf [2, 1, 0, 0, 0]).cards.update = none ∧
      ((updateOf [2, 1, 0, 0, 0]).line.buffer.find? (fun r => r.telegram.kind == .cardUpdate)).map
        (fun r => readOps 3 1 r.telegram.payload) = some [(1, .remove 1)] := by decide

theorem witness_CardUpdateIsTakenInOrder_unknown :
    (updateOf [9]).StationRuns ∧ (updateOf [9]).cards.phase = .opened ∧ (updateOf [9]).cards.update = none ∧
      ((updateOf [9]).line.buffer.find? (fun r => r.telegram.kind == .cardUpdate)).map
        (fun r => readOps 3 1 r.telegram.payload) = some [(1, .unknown)] ∧
      (updateOf [9]).line.queue.length < 6 := by decide

/-- The card table's law holds of the tests' table, whatever is being worked. -/
theorem witness_CardLaw (update : Option CardUpdate) :
    (station.withCards { cards with update := update }).CardLaw where
  slots := show cards.slots.Pairwise (fun a b => a.1 < b.1) by decide
  slotRange := show ∀ p ∈ cards.slots, p.1 < 4 * bucketCount by decide
  once := show ∀ p ∈ cards.slots, ∀ q ∈ cards.slots, p.1 / 4 = q.1 / 4 → p.2.number = q.2.number → p.1 = q.1 by decide
  entries := rfl
  checkValue := show cards.checkValue = (cards.slots.map (fun p => recordCrc p.2)).sum by decide +kernel
  positions := show cards.revoked.Pairwise (fun a b => a.1 < b.1) by decide
  range := show ∀ p ∈ cards.revoked, p.1 < revocationPositions by decide
  revokedOnce := show ∀ p ∈ cards.revoked, ∀ q ∈ cards.revoked, p.2 = q.2 → p.1 = q.1 by decide
  revocations := rfl
  reading := show UnitPhase.running = .reading → cards.phase = .scanning by decide

theorem witness_AddAndRemoveChangeOneCard_add :
    let n := working [(1, .add 513 0 0 31 0x25)]
    n.StationRuns ∧ n.cards.phase = .opened ∧ n.cardsAdmitted = true ∧
      addRecord 513 0 0 31 0x25 = some ⟨513, .resident, 31, 5, 2, .valid⟩ ∧ n.cards.slotFor 513 = some 5 ∧
      n.cards.slotFor 1 = some 4 := by decide

theorem witness_AddAndRemoveChangeOneCard_remove :
    let n := working [(1, .remove 1)]
    n.StationRuns ∧ n.cards.phase = .opened ∧ n.cardsAdmitted = true ∧
      slotHolding n.cards.slots 1 = some (4, resident) := by decide

theorem test_add_in_the_bucket :
    (after (working [(1, .add 513 0 0 31 0x25)]) (.add 0)).cards.slots.map (·.1) = [4, 5, 8] ∧
      (after (working [(1, .add 513 0 0 31 0x25)]) (.add 0)).cards.entries = 3 := by decide

theorem witness_AddAndRemoveChangeOneCard_waits :
    (kept (working [(1, .add 513 0 0 31 0x25)]) 4).StationRuns ∧
      (kept (working [(1, .add 513 0 0 31 0x25)]) 4).cardsAdmitted = false ∧
      (kept (working [(1, .remove 1)]) 4).cardsAdmitted = false ∧
      (kept (working [(1, .remove 1)]) 3).cardsAdmitted = true := by decide

/-- R89: with a free entry the card table does not wait, though the log has a write waiting; an entry kept for the log is not
the card table's. -/
theorem test_add_with_log_waiting :
    (after (kept (working [(1, .add 513 0 0 31 0x25)]) 3) (.add 0)).cards.entries = 3 ∧
      (after (kept (working [(1, .add 513 0 0 31 0x25)]) 4) (.add 0)).cards.entries = 2 := by decide

theorem witness_RevokeAddAndRemoveChangeOneNumber_add :
    let n := working [(1, .revokeAdd 1)]
    n.StationRuns ∧ n.cards.phase = .opened ∧ n.cardsAdmitted = true ∧ n.cards.isRevoked 1 = false ∧
      lowestFree n.cards.revoked 0 128 = some 1 := by decide

theorem witness_RevokeAddAndRemoveChangeOneNumber_remove :
    let n := working [(1, .revokeRemove 99)]
    n.StationRuns ∧ n.cards.phase = .opened ∧ n.cardsAdmitted = true ∧ (0, 99) ∈ n.cards.revoked := by decide

theorem witness_RevokeAddAndRemoveChangeOneNumber_waits :
    (kept (working [(1, .revokeAdd 1)]) 4).cardsAdmitted = false ∧
      (kept (working [(1, .revokeRemove 99)]) 4).cardsAdmitted = false ∧
      (kept (working [(1, .revokeRemove 99)]) 4).StationRuns := by decide

/-- The station with a full bucket 1 and all 128 positions held. -/
def crowded (op : CardOp) : Node := station.withCards { cards with
  slots := [(4, resident), (5, { resident with number := 513 }), (6, { resident with number := 1025 }),
    (7, { resident with number := 1537 })]
  revoked := (List.range 128).map (fun k => (k, BitVec.ofNat 32 (1000 + k)))
  update := some ⟨[(1, op), (2, .clear)], true⟩ }

theorem witness_FaultsAndEmptyOperations_add :
    (crowded (.add 2049 0 0 31 0)).StationRuns ∧ (crowded (.add 2049 0 0 31 0)).cards.phase = .opened ∧
      (crowded (.add 2049 0 0 31 0)).line.queue.length < 6 ∧ addRecord 2049 4 0 31 0 = none ∧
      (addRecord 2049 0 0 31 0).isSome = true ∧ (crowded (.add 2049 0 0 31 0)).cards.slotFor 2049 = none ∧
      (CardOp.clear ≠ .unknown) ∧ (working [(1, .remove 2)]).StationRuns ∧
      (working [(1, .remove 2), (2, .unknown)]).cards.update = some ⟨(1, .remove 2) :: [(2, .unknown)], true⟩ ∧
      (working [(1, .remove 2), (2, .unknown)]).line.queue.length < 6 := by decide

theorem witness_FaultsAndEmptyOperations_others :
    slotHolding (crowded (.remove 2)).cards.slots 2 = none ∧ (crowded (.revokeAdd 1000)).cards.isRevoked 1000 = true ∧
      (crowded (.revokeAdd 1)).cards.isRevoked 1 = false ∧
      lowestFree (crowded (.revokeAdd 1)).cards.revoked 0 128 = none ∧
      (crowded (.revokeRemove 1)).cards.isRevoked 1 = false := by decide

/-- R29, R31: after the last operation the telegram leaves the buffer; an unknown operation in place 2 ends it with a fault. -/
theorem test_remove_of_the_last_operation :
    let heard (ops : List (Nat × CardOp)) := (hearing station .cardUpdate []).withCards { cards with update := some ⟨ops, true⟩ }
    (after (heard [(1, .remove 2)]) (.remove 0)).cards.update = none ∧
      (after (heard [(1, .remove 2)]) (.remove 0)).line.buffer = [] ∧
      (after (heard [(1, .remove 3), (2, .unknown)]) (.remove 0)).line.queue.map (·.telegram.payload) =
        [[2, 0, 0, 0, 0, 2]] := by decide

theorem witness_malformed_add_boundaries :
    addRecord 1 3 1 31 63 = some ⟨1, .test, 31, 15, 3, .suspended⟩ ∧ addRecord 1 4 0 0 0 = none ∧
      addRecord 1 0 2 0 0 = none ∧ addRecord 1 0 0 32 0 = none ∧ addRecord 1 0 0 0 64 = none := by decide

/-- The station with a clear in flight, its last row placed. -/
def clearing (phase : TablePhase) (progress : Nat) (staging : List RowWrite) : Node :=
  (station.withCards { cards with phase := phase, progress := some progress }).withStore
    { Store.factory with staging := staging, programEnds := if staging.isEmpty then none else some 1000004000 }

theorem witness_ClearsRunRowByRow :
    (working [(1, .clear)]).StationRuns ∧ (working [(1, .clear)]).cards.phase = .opened ∧
      (clearing .clearing 1023 []).StationRuns ∧ (clearing .clearing 1023 []).cardsAdmitted = true ∧
      (clearing .clearing 1023 []).cards.progress = some 1023 ∧
      (clearing .revokeClearing 63 []).cardsAdmitted = true ∧ (1023 < 1024 ∧ 63 < 64) ∧
      (kept (clearing .clearing 1023 []) 4).cardsAdmitted = false := by decide

theorem witness_ClearsRunRowByRow_end :
    let n := clearing .clearing 1024 [⟨.card, 1023, []⟩]
    let m := clearing .revokeClearing 64 [⟨.revocation, 63, []⟩]
    n.StationRuns ∧ n.store.programEnds = some 1000004000 ∧ n.cards.phase = .clearing ∧ n.cards.progress = some 1024 ∧
      m.StationRuns ∧ m.store.programEnds = some 1000004000 ∧ m.cards.phase = .revokeClearing ∧
      m.cards.progress = some 64 := by decide

/-- A station whose card table is SCANNING, with the row of slots 4 and 5 in the store, and the row of slots 0 and 1 torn. -/
def scanning : Node := (station.withCards Cards.start).withStore
  { Store.factory with
    cells := Memory.writeAll [] 32 (cardRow (some resident) none), torn := [(0, 0)], tears := 1 }

theorem witness_CardScanTakesWhatTheRowsHold :
    scanning.StationRuns ∧ scanning.cards.phase = .scanning ∧
      (scanning.store.cardSlots 2)[0]? = some (.occupied resident) ∧ scanning.store.readRow .card 0 = none := by decide +kernel

/-- A row with the resident's card twice, one with a class code that is none, and a revocation row with card 99 twice. -/
def repaired : Store := { Store.factory with
  cells := Memory.writeAll (Memory.writeAll (Memory.writeAll [] 32 (cardRow (some resident) (some resident))) 64
    (withRowCheck ([9, 0, 0, 0, 0x87, 0, 0] ++ List.replicate 8 0))) (16 * 1024) (revocationRow (some 99) (some 99)) }

theorem witness_CardScanTakesWhatTheRowsHold_repaired :
    repaired.cardSlots 2 = [.occupied resident, .occupied resident] ∧ (4 < 5 ∧ 4 / 4 = 5 / 4) ∧
      (repaired.cardSlots 4)[0]? = some .outOfRange ∧ repaired.rowPositions 0 = [some 99, some 99] ∧
      scanSlots 4 (repaired.cardSlots 2) [] = [(4, resident)] ∧
      scanPositions 0 (repaired.rowPositions 0) [] = [(0, 99)] := by decide +kernel

theorem witness_CardScanTakesWhatTheRowsHold_starts :
    let n := scanning.withHatch { hatch with station := .starting }
    let m := (inSafe hatch).withCards Cards.start
    n.StationActs ∧ n.hatch.evaluating = none ∧ n.hatch.station = .starting ∧ n.control.phase = .running ∧
      n.log.phase = .opened ∧ n.pressHome = true ∧ n.hatch.firstSounding = true ∧ m.StationActs ∧
      m.cards.phase = .scanning := by decide

/-- The station scanning its card table with a card's evaluation waiting, the row of slots 8 and 9 holding the crew card. -/
def scanningFor (card : CardNumber) : Node :=
  (scanning.withStore { scanning.store with
    cells := Memory.writeAll scanning.store.cells 64 (cardRow (some crew) none) }).withHatch
      { hatch with evaluating := some card }

theorem witness_CardScanTakesWhatTheRowsHold_evaluates :
    (scanningFor 1).StationActs ∧ (scanningFor 1).cards.phase = .scanning ∧
      (scanningFor 1).hatch.evaluating = some 1 ∧ (scanningFor 2).hatch.evaluating = some 2 ∧
      ((scanningFor 2).store.cardSlots 4)[0]? = some (.occupied crew) ∧ crew.status = .valid ∧ crew.cls = .crew ∧
      (scanningFor 2).hatch.station = .ready := by decide +kernel

/-- R28, R51: what waited goes on at step 2 with the table as it is found. -/
theorem test_waiting_evaluation_goes_on :
    let goesOn (card : CardNumber) := (hatches { hatch with evaluating := some card }).resumeEvaluation
    (goesOn 1).hatch.window = some 1010000000 ∧ (goesOn 99).hatch.panel = some ⟨.refusal 11, some 1004000000⟩ ∧
      (goesOn 3).hatch.panel = some ⟨.refusal 12, some 1004000000⟩ ∧ (goesOn 2).hatch.station = .service ∧
      (goesOn 2).hatch.window = some 1010000000 := by decide +kernel

/-! ### Card presentation, hatch and deposits (03) -/

/-- A pending acceptance of the resident's card. -/
def accepted : Acceptance := ⟨1, .resident, some 2, false, 999000000⟩

/-- A hatch with a release window for the resident's card. -/
def window : Hatch := { hatch with
  phase := .window, window := some 1009000000, acceptance := some accepted, lock := .hold
  panel := some ⟨.accept, none⟩ }

/-- A hatch with a deferred release for the resident's card. -/
def deferred : Hatch := { hatch with
  phase := .deferred, deferred := some 1019000000, acceptance := some accepted, panel := some ⟨.deferred, none⟩ }

/-- A hatch open for a deposit of the resident's card. -/
def depositing : Hatch := { hatch with
  hatch := .opened, openSince := some 999500000, phase := .deposit, acceptance := some accepted }

theorem witness_CardEvaluationTakesTheFirstStep_discarded :
    (hatches { hatch with evaluating := some 1 }).StationRuns ∧
      (hatches { hatch with evaluating := some 1 }).hatch.evaluating.isSome = true := by decide

theorem witness_CardEvaluationTakesTheFirstStep_repeat :
    (hatches { hatch with lastRead := some ⟨1, 998000001⟩ }).StationRuns ∧
      (hatches { hatch with lastRead := some ⟨1, 998000001⟩ }).hatch.evaluating = none ∧
      ∃ t, (hatches { hatch with lastRead := some ⟨1, 998000001⟩ }).hatch.lastRead = some ⟨1, t⟩ ∧
        1000000000 + 0 - t < 2000000 := ⟨by decide, rfl, 998000001, rfl, by decide⟩

theorem witness_CardEvaluationTakesTheFirstStep_evaluated :
    (hatches { hatch with lastRead := some ⟨1, 998000000⟩ }).StationRuns ∧
      (hatches { hatch with lastRead := some ⟨1, 998000000⟩ }).hatch.evaluating = none ∧
      ∀ t, (hatches { hatch with lastRead := some ⟨1, 998000000⟩ }).hatch.lastRead = some ⟨1, t⟩ →
        2000000 ≤ 1000000000 + 0 - t := by
  refine ⟨by decide, rfl, fun t h => ?_⟩
  have h' : some (LastRead.mk 1 998000000) = some ⟨1, t⟩ := h
  cases h'
  decide

theorem witness_evaluation_in_safe :
    (inSafe hatch).StationActs ∧ (inSafe hatch).hatch.evaluating = none ∧ (inSafe hatch).hatch.lastRead = none ∧
      (inSafe hatch).hatch.station = .safe ∧ (inSafe window).hatch.ownPending 1 = true ∧
      (inSafe hatch).cards.lookup 2 = some crew ∧ (inSafe hatch).pressHome = true := by decide

/-- R68: in SAFE a resident's card is refused with 90, and a crew card gets its window. -/
theorem test_cardRead_in_safe :
    (after (inSafe hatch) (.cardRead 0 1)).hatch.panel = some ⟨.refusal 90, some 1004000000⟩ ∧
      (after (inSafe hatch) (.cardRead 0 2)).hatch.window = some 1010000000 := by decide +kernel

/-- A resident's card at a station at rest opens a release window of 10 s with a pull-in of 300 ms. -/
theorem test_cardRead_accepts :
    (after station (.cardRead 0 1)).hatch.window = some 1010000000 ∧
      (after station (.cardRead 0 1)).hatch.lock = .pullIn 1000300000 ∧
      (after station (.cardRead 0 99)).hatch.panel = some ⟨.refusal 11, some 1004000000⟩ := by decide +kernel

theorem witness_OwnPendingCardIsPresentedAgain :
    (hatches window).StationRuns ∧ (hatches window).hatch.evaluating = none ∧
      (∀ t, (hatches window).hatch.lastRead = some ⟨1, t⟩ → 2000000 ≤ 1000000000 + 0 - t) ∧
      (hatches window).hatch.station ≠ .starting ∧ (hatches window).cards.phase ≠ .scanning ∧
      (hatches window).hatch.ownPending 1 = true ∧ (hatches deferred).hatch.ownPending 1 = true :=
  ⟨by decide, rfl, nofun, by decide, by decide, by decide, by decide⟩

theorem witness_CrewCardBeginsService :
    station.StationRuns ∧ station.hatch.evaluating = none ∧
      (∀ t, station.hatch.lastRead = some ⟨2, t⟩ → 2000000 ≤ 1000000000 + 0 - t) ∧
      station.hatch.station ≠ .starting ∧ station.cards.phase ≠ .scanning ∧ station.cards.isRevoked 2 = false ∧
      station.cards.lookup 2 = some crew ∧ crew.status = .valid ∧ crew.cls = .crew :=
  ⟨by decide, rfl, nofun, by decide, by decide, by decide, by decide, rfl, rfl⟩

theorem test_cardRead_crew :
    (after station (.cardRead 0 2)).hatch.station = .service ∧
      (after station (.cardRead 0 2)).hatch.service = some ⟨1900000000, 2⟩ := by decide +kernel

/-- A hatch with every one of its timers running. -/
def timed : Hatch := { window with
  lock := .pullIn 1000300000, deferred := some 1019000000, service := some ⟨1900000000, 2⟩
  panel := some ⟨.refusal 20, some 1004000000⟩, buzzer := .tone 1 1000000000 1000150000 }

theorem witness_HatchTimersRunOut :
    (hatches timed).StationRuns ∧ (hatches timed).hatch.window = some 1009000000 ∧
      (hatches timed).hatch.deferred = some 1019000000 ∧ (hatches timed).hatch.lock = .pullIn 1000300000 ∧
      (hatches timed).hatch.service = some ⟨1900000000, 2⟩ ∧
      (hatches timed).hatch.panel = some ⟨.refusal 20, some 1004000000⟩ ∧
      (hatches timed).hatch.buzzer = .tone 1 1000000000 1000150000 ∧ (hatches timed).hatch.evaluating = none ∧
      (inSafe timed).StationActs := by decide

/-- R65: the second tone lasts 150 ms from its beginning, whatever the interval before it is. -/
theorem test_second_tone (now : Moment) :
    buzzerAfter 1 now = .tone 0 (now + Config.toneGap) (now + Config.toneGap + 150000) ∧ buzzerAfter 0 now = .silent := by
  simp [buzzerAfter, toneLength, ms]

theorem witness_HatchTimersRunOut_raises :
    let n := (hatches { hatch with station := .service, service := some ⟨1900000000, 2⟩ }).withSounding
      { station.sounding with fill := some 800 }
    n.StationActs ∧ n.hatch.station = .service ∧ n.hatch.service.isSome = true ∧ n.call.state = .none ∧
      n.control.settings.callThreshold ≤ 800 := by decide

/-- The station with a window, three of the conditions of a claim beside it, and a number of deposits since the last stroke. -/
def closing (deposits : Nat) : Node := loaded (hatches window) deposits 402

theorem witness_HatchTimersRunOut_claims :
    let left (deposits : Nat) := (closing deposits).withHatch { hatch with phase := .idle }
    (closing 4).StationActs ∧ (closing 4).control.phase ≠ .safe ∧ (closing 4).line.queue.length ≤ 2 ∧
      (closing 4).hatch.window.isSome = true ∧ Node.ClaimDue (closing 4) (left 4) ∧ ¬ Node.ClaimDue (closing 3) (left 3) :=
  ⟨by decide, by decide, by decide, by decide, ⟨by decide, by decide, by decide, by decide, .inl ⟨402, rfl, by decide⟩, by decide,
    by decide, by decide, by decide, by decide, by decide⟩, fun h => absurd h.2.2.2.2.2.1 (by decide)⟩

theorem witness_HatchTimersRunOut_law :
    let n := hatches { hatch with station := .service, service := some ⟨1900000000, 2⟩ }
    (noticed n (some 402)).NoticeLaw ∧ (noticed n (some 402)).StationActs :=
  ⟨⟨fun _ => ⟨_, rfl, by rw [← NoticeContent.differs_iff]; decide⟩, nofun⟩, by decide⟩

/-- R57, R66, R112: a window that expires ends its standing indication, and the trigger of a claim is evaluated. -/
theorem test_windowExpiry_claims :
    let left (deposits : Nat) := after (closing deposits) (.windowExpiry 0)
    (left 4).press.state = .claiming ∧ (left 3).press.state = .home ∧ (left 3).hatch.panel = none ∧
      (left 3).hatch.buzzer = .silent := by decide +kernel

theorem witness_ReleaseLaw : (hatches window).ReleaseLaw ∧ (hatches deferred).ReleaseLaw ∧ station.ReleaseLaw :=
  ⟨⟨by decide, by decide, by decide, by decide⟩, ⟨by decide, by decide, by decide, by decide⟩,
    ⟨by decide, by decide, by decide, by decide⟩⟩

theorem witness_HatchOpeningActsByPhase_open :
    (hatches window).StationRuns ∧ (hatches window).hatch.hatch = .closed ∧ (hatches window).hatch.phase = .window ∧
      (hatches deferred).StationRuns ∧ (hatches deferred).hatch.phase = .deferred ∧ station.hatch.phase = .idle ∧
      (hatches deferred).log.phase = .opened ∧ (hatches deferred).log.eventsHeld < 3 ∧
      (inSafe window).StationActs ∧ (inSafe window).hatch.hatch = .closed := by decide

theorem witness_HatchOpeningActsByPhase_flight :
    let n := (sounds fifthSlot).withHatch window
    n.StationRuns ∧ n.hatch.hatch = .closed ∧ n.sounding.flight.isSome = true := by decide

theorem witness_HatchOpeningActsByPhase_stuck :
    (hatches depositing).StationRuns ∧ (hatches depositing).hatch.openSince = some 999500000 ∧
      (hatches depositing).hatch.stuck = false := by decide

theorem witness_HatchOpeningActsByPhase_follows :
    let n := noticed (hatches depositing) (some 402)
    n.neighbour.phase = .active ∧ n.neighbour.last = some n.noticeContent ∧ n.control.phase ≠ .safe ∧
      n.line.queue.length ≤ 2 := by decide

/-- R22, R64, R150: HATCH STUCK is told in a FILL NOTICE; a sounding abandoned by an opening returns with its markers, at the
later due time of the request held. -/
theorem test_hatchStuck_and_abandonment :
    let stuck := after (noticed (hatches depositing) (some 402)) (.hatchStuck 0)
    let flying (r : Option SoundingRequest) := sounds { fifthSlot with
      flight := fifthSlot.flight.map (fun f => { f with repeats := true }), request := r }
    stuck.neighbour.last.map (·.hatchStuck) = some true ∧
      (stuck.line.queue.map (·.telegram)) = [stuck.presentNotice] ∧
      (after (flying none) (.hatchOpen 0)).sounding.request = some ⟨1003000000, false, true⟩ ∧
      (after (flying (some ⟨1030000000, true, false⟩)) (.hatchOpen 0)).sounding.request = some ⟨1030000000, true, true⟩ := by
  decide +kernel

theorem test_hatchOpen_forced :
    (after station (.hatchOpen 0)).hatch.phase = .forcedOpening ∧
      (after station (.hatchOpen 0)).log.appendList.map (·.body) = [.forced] := by decide +kernel

theorem witness_DepositCompletesAtEveryUnit :
    (hatches depositing).StationRuns ∧ (hatches depositing).hatch.hatch = .opened ∧
      (hatches depositing).hatch.phase = .deposit ∧ (hatches depositing).hatch.acceptance = some accepted ∧
      (hatches depositing).sounding.phase ≠ .stopped ∧ (hatches depositing).line.queue.length ≤ 2 := by decide

/-- The station with the tally table not rebuilt yet, and a deposit of card 1 on the day held. -/
def notRebuilt (h : Hatch) : Node :=
  ((hatches h).withTally Tally.start).withLog { station.log with held := [record 0] }

/-- R76: the rebuild ends before the first completion, which counts on what it gave. -/
theorem test_hatchClosed_after_the_rebuild :
    (after (notRebuilt depositing) (.hatchClosed 0 none)).tally.entries = [⟨1, 2, 0, 2⟩] ∧
      (after (notRebuilt depositing) (.hatchClosed 0 none)).tally.rebuilt = true := by decide +kernel

/-- A deposit at base rate 40 and band 2 is charged 40, and raises the fill 402 by the bag increment 12. -/
theorem test_hatchClosed_deposit :
    (after (hatches depositing) (.hatchClosed 0 none)).log.accounting.total = 40 ∧
      (after (hatches depositing) (.hatchClosed 0 none)).sounding.fill = some 414 := by decide +kernel

theorem witness_DepositCompletesAtEveryUnit_claims :
    let n := loaded (hatches depositing) 3 414
    n.control.settings.pressFitted = true ∧ n.press.state = .home ∧ n.press.retry = none ∧ n.hatch.station = .ready ∧
      n.inPressHours = true ∧ n.sounding.flight = none ∧ n.line.queue.length ≤ 2 ∧ n.hatch.lift = .seated := by decide

/-- R19, R112: the deposit that is the fourth, and raises the fill to the threshold, claims; the sounding is armed 3 s later,
or stays armed for later. -/
theorem test_hatchClosed_claims_and_arms :
    let closed (deposits threshold : Nat) := after (loaded (hatches depositing) deposits threshold) (.hatchClosed 0 none)
    let armed (due : Moment) := after ((hatches depositing).withSounding { station.sounding with
      phase := .waiting, request := some ⟨due, false, true⟩ }) (.hatchClosed 0 none)
    (closed 3 414).press.state = .claiming ∧ (closed 3 415).press.state = .home ∧ (closed 2 414).press.state = .home ∧
      (armed 5).sounding.request = some ⟨1003000000, false, true⟩ ∧
      (armed 1003000001).sounding.request = some ⟨1003000001, false, true⟩ := by decide +kernel

theorem witness_ClosingAndSettlingCountNothing :
    let c := hatches { depositing with phase := .crewOpening }
    let f := hatches { depositing with phase := .forcedOpening, acceptance := none }
    let u := hatches { hatch with hatch := .unsettled, lift := .unsettled }
    c.StationRuns ∧ c.hatch.hatch = .opened ∧ c.hatch.phase = .crewOpening ∧ f.StationRuns ∧
      f.hatch.phase = .forcedOpening ∧ u.StationRuns ∧ u.hatch.hatch = .unsettled ∧ u.hatch.lift = .unsettled ∧
      (inSafe { depositing with phase := .crewOpening }).StationActs := by
  decide

theorem witness_LiftEmptiesAndSeatRearms :
    let d := hatches deferred
    let l := hatches { hatch with lift := .lifted }
    d.StationActs ∧ d.sounding.phase ≠ .stopped ∧ d.hatch.lift = .seated ∧ d.hatch.phase = .deferred ∧
      (hatches window).hatch.lift = .seated ∧ d.log.phase = .opened ∧ d.log.eventsHeld < 3 ∧ l.StationActs ∧
      l.sounding.phase ≠ .stopped ∧ l.hatch.lift = .lifted ∧ d.call.state = .none ∧ (inSafe window).StationActs ∧
      ¬ (inSafe window).sounding.phase ≠ .stopped := by decide

theorem witness_LiftEmptiesAndSeatRearms_deposit :
    let n := (hatches depositing).withCall { Call.start with state := .awaiting, tag := some 5 }
    n.StationActs ∧ n.hatch.lift = .seated ∧ n.hatch.phase = .deposit ∧ n.hatch.acceptance = some accepted ∧
      n.log.phase = .opened ∧ n.log.eventsHeld < 3 ∧ n.control.phase = .running ∧ n.line.queue.length ≤ 2 ∧
      n.call.state ≠ .none := by decide

/-- R49, R63, R171: a lift in DEPOSIT completes the deposit, records it before the emptying, and closes the open call. -/
theorem test_lift_in_deposit :
    let n := (hatches depositing).withCall { Call.start with state := .awaiting, tag := some 5 }
    (after n (.lift 0)).log.accounting.total = 40 ∧
      (after n (.lift 0)).log.appendList.map (·.body) = [.deposit 1 40 false false false, .unannouncedEmpty] ∧
      (after n (.lift 0)).line.queue.any (fun e => e.telegram == station.telegram .callClosed 250 [5, 1]) = true := by
  decide +kernel

/-- A lift in a service period is recorded as an EMPTYING under its crew card (R49). -/
theorem test_lift_in_service :
    (after (hatches { hatch with service := some ⟨1900000000, 2⟩ }) (.lift 0)).log.appendList.map (·.body) =
      [.emptying 2] := by decide +kernel

theorem witness_LiftEmptiesAndSeatRearms_soundings :
    let flying := (sounds fifthSlot).withHatch depositing
    let lifted := (hatches { hatch with lift := .lifted }).withSounding { station.sounding with
      phase := .held, request := some ⟨1030000000, true, false⟩ }
    flying.StationActs ∧ flying.sounding.flight.isSome = true ∧ flying.sounding.phase ≠ .stopped ∧
      flying.hatch.lift = .seated ∧ flying.hatch.phase = .deposit ∧ flying.hatch.acceptance.isSome = true ∧
      lifted.StationActs ∧ lifted.sounding.phase ≠ .stopped ∧ lifted.hatch.lift = .lifted := by decide

/-- R19: a seat arms a sounding 20 s later, or for the later due time of the request held, with its markers. -/
theorem test_seat_arms :
    let seated (due : Moment) := after ((hatches { hatch with lift := .lifted }).withSounding { station.sounding with
      phase := .held, request := some ⟨due, true, false⟩ }) (.seat 0 none)
    (seated 5).sounding.request = some ⟨1020000000, true, false⟩ ∧ (seated 5).sounding.phase = .waiting ∧
      (seated 1030000000).sounding.request = some ⟨1030000000, true, false⟩ ∧
      (after (hatches { hatch with lift := .lifted }) (.seat 0 none)).sounding.request =
        some ⟨1020000000, false, false⟩ := by decide +kernel

theorem witness_NoRevokedCardGetsAWindow :
    exec (.cardRead 0 1) ⟨station, []⟩ = .next ⟨after station (.cardRead 0 1), []⟩ ∧
      (after station (.cardRead 0 1)).hatch.window.isSome = true ∧
      (after station (.cardRead 0 1)).hatch.window ≠ station.hatch.window :=
  ⟨rfl, by decide +kernel, by decide +kernel⟩

/-- R65: codes are two digits, right-aligned; an island number has one to three and flashes. -/
theorem test_display :
    (Indication.refusal 30).display = ⟨none, some 3, some 0, false⟩ ∧ Indication.presentAgain.display = ⟨none, some 1, some 9, false⟩ ∧
      (Indication.redirect 7).display = ⟨none, none, some 7, true⟩ ∧
      (Indication.redirect 10).display = ⟨none, some 1, some 0, true⟩ ∧
      (Indication.redirect 205).display = ⟨some 2, some 0, some 5, true⟩ ∧ Indication.forced.display = .blank := by decide

/-! ### Tallies, charges and the station clock (04) -/

/-- The worked charges of 04: base 40, and the largest charge before and after the halving. -/
theorem test_charges :
    chargeOf 40 2 false = 40 ∧ chargeOf 40 2 true = 20 ∧ chargeOf 255 3 false = 255 ∧ chargeOf 255 3 true = 191 ∧
      chargeOf 255 0 false = 0 := by decide

theorem witness_ChargeFollowsBandAndBase : 255 ≤ 255 ∧ 0 ≤ 255 := by decide

/-- The station with one card tallied. -/
def tallied : Node := station.withTally { station.tally with entries := [⟨1, 2, 3, 5⟩], touches := 5 }

theorem witness_TallyRaisesOneCard :
    tallied.TallyLaw ∧ (tallied.tally.knownCount 1) = some 5 ∧ (tallied.tally.countHeard 1).isSome = true ∧
      (tallied.tally.countDeposit 2).isSome = true ∧ (⟨1, 2, 3, 5⟩ : TallyEntry).card ≠ 2 ∧
      tallied.tally.touches < 4294967295 :=
  ⟨⟨by decide, by decide, by decide, by decide, by decide⟩, by decide, by decide, by decide, by decide, by decide⟩

/-- The station with the touch counter at its maximum. -/
def worn : Node := station.withTally { station.tally with entries := [⟨1, 2, 3, 4294967295⟩], touches := 4294967295 }

theorem witness_TallyRaisesOneCard_maximum :
    worn.TallyLaw ∧ (worn.tally.countDeposit 2).map (·.touches) = some (Config.touchBeyond [4294967295]).toNat :=
  ⟨⟨by decide, by decide, by decide, by decide, by decide⟩, rfl⟩

/-- A TALLY NOTICE of a card, a fraction and a day (12.2). -/
def noticeOf (fraction : Byte) (day : Nat) : Node :=
  hearing station .tallyNotice (bytesOf 4 1 ++ [fraction] ++ bytesOf 2 day)

theorem witness_TallyRaisesOneCard_notice :
    (noticeOf 0 20).StationRuns ∧ (noticeOf 0 20).tally.rebuilt = true ∧
      ((noticeOf 0 20).line.buffer.find? (fun r => r.telegram.kind == .tallyNotice)).isSome = true ∧
      ((noticeOf 0 20).withTally Tally.start).tally.rebuilt = false := by decide

theorem test_tallyNotice_own_day_only :
    (after (noticeOf 0 20) (.tallyNotice 0)).tally.entries = [⟨1, 0, 1, 1⟩] ∧
      (after (noticeOf 0 21) (.tallyNotice 0)).tally.entries = [] := by decide

/-- The station at a second of the day. -/
def atSecond (seconds : Option Nat) (entered : Option Moment) : Node :=
  station.withClock ⟨20, seconds, entered⟩

theorem witness_ClockRunsAndRollsOver :
    (atSecond none none).StationRuns ∧ (atSecond none none).clock.seconds = none ∧
      (atSecond (some 14399) none).clock.seconds = some 14399 ∧ 14399 + 1 = 4 * 3600 ∧
      (atSecond (some 14399) none).control.settings.rolloverHour = 4 ∧ 43200000000 < 43200000001 + 0 - 0 ∧
      ((inSafe hatch).withClock ⟨20, some 14399, none⟩).StationActs := by decide

/-- The rollover instant of hour 4: the day closes with the second before it. -/
theorem test_clockSecond_rolls_over :
    (after (atSecond (some 14399) none) (.clockSecond 1000000)).clock = ⟨21, some 14400, some 1001000000⟩ ∧
      (after (atSecond (some 86399) (some 0)) (.clockSecond 1000000)).clock = ⟨20, some 0, some 0⟩ := by decide +kernel

/-- A FORCED record of the station. -/
def forced : LogEntry := ⟨.forced, 20, some 18000, .residual, some 402⟩

/-- The station with a log that has room for `room` records, an event and a completed deposit waiting, and the last second of its
day. -/
def lastSecond (room : Nat) : Node :=
  let n := atSecond (some 14399) none
  n.withLog { n.log with
    held := List.replicate (1024 - room) (record 0), appendList := [forced, (record 0).entry, (record 0).entry] }

/-- The deposit of record 0 as an overflow deposit. -/
def overflowed : LogEntry := { (record 0).entry with body := .overflowDeposit }

theorem witness_ClockRunsAndRollsOver_overflow :
    (lastSecond 0).log.ClosesWith [forced, overflowed, overflowed] 2 ∧
      (lastSecond 2).log.ClosesWith [forced, (record 0).entry, overflowed] 1 ∧
      (lastSecond 3).log.ClosesWith [forced, (record 0).entry, (record 0).entry] 0 := by
  refine ⟨⟨rfl, fun k e h => ?_, by decide +kernel⟩, ⟨rfl, fun k e h => ?_, by decide +kernel⟩,
    ⟨rfl, fun k e h => ?_, by decide +kernel⟩⟩ <;>
  · have h' : [forced, (record 0).entry, (record 0).entry][k]? = some e := h
    match k, h' with
    | 0, h' => cases h'; decide +kernel
    | 1, h' => cases h'; decide +kernel
    | 2, h' => cases h'; decide +kernel
    | k + 3, h' => simp at h'

/-- R81: a deposit completed before the rollover that finds the log full is in the overflow count of the DAY CLOSE, and not in the
new day's when its row write is placed; one that the log can hold is recorded. -/
theorem test_rollover_counts_the_overflow :
    let closed (room : Nat) := after (lastSecond room) (.clockSecond 1000000)
    let appended (n : Node) := after { n with log := { n.log with appendList := n.log.appendList.drop 1 } } (.recordAppend 0)
    ((closed 0).log.appendList.map (·.body)).getLast? = some (.dayClose 0 0 2) ∧
      ((closed 2).log.appendList.map (·.body)).getLast? = some (.dayClose 0 0 1) ∧
      (appended (closed 0)).log.accounting.overflowCount = 0 ∧ (appended (closed 0)).store.staging.length = 2 ∧
      (appended (closed 0)).log.held.length = 1024 ∧ (appended (closed 2)).log.held.length = 1023 := by decide +kernel

/-- A TIME telegram. -/
def timeOf (day seconds : Nat) : Node := hearing station .time (bytesOf 2 day ++ bytesOf 3 seconds)

theorem witness_TimeSetsTheClock :
    (timeOf 20 86399).StationRuns ∧ (timeOf 20 86399).log.phase = .opened ∧
      ((timeOf 20 86399).line.buffer.find? (fun r => r.telegram.kind == .time)).map
        (fun r => (field r.telegram.payload 0 2, field r.telegram.payload 2 3)) = some (20, 86399) ∧
      (timeOf 20 86399).clock.day = 20 ∧ (86399 < 86400 ∧ 20 < 21 ∧ 86400 ≤ 86400 ∧ 19 < 20) ∧
      (timeOf 21 0).log.eventsHeld < 3 ∧
      (hearing (inSafe hatch) .time (bytesOf 2 20 ++ bytesOf 3 0)).StationActs := by decide

/-- Seconds that differ by 2 leave the clock, and by 3 set it. -/
theorem test_time_sets_beyond_two_seconds :
    (after (timeOf 20 36002) (.time 0)).clock.seconds = some 36000 ∧
      (after (timeOf 20 36003) (.time 0)).clock.seconds = some 36003 ∧
      (after (timeOf 19 50000) (.time 0)).clock = station.clock := by decide +kernel

theorem witness_DayTotalsChangeOnlyByCompletionOrRollover :
    exec (.hatchOpen 0) ⟨station, []⟩ = .next ⟨after station (.hatchOpen 0), []⟩ ∧
      (∀ dt reading, Instr.hatchOpen 0 ≠ .hatchClosed dt reading) ∧ (∀ dt, Instr.hatchOpen 0 ≠ .lift dt) ∧
      (∀ dt, Instr.hatchOpen 0 ≠ .clockSecond dt) ∧ (∀ dt, Instr.hatchOpen 0 ≠ .time dt) ∧
      (∀ dt, Instr.hatchOpen 0 ≠ .logScanEnd dt) ∧ (∀ dt, Instr.hatchOpen 0 ≠ .powerOn dt) ∧
      (∀ dt, Instr.hatchOpen 0 ≠ .resetPin dt) ∧ (∀ dt, Instr.hatchOpen 0 ≠ .resetPinHeld dt) ∧
      (∀ dt, Instr.hatchOpen 0 ≠ .supplyFails dt) ∧ ∀ dt, Instr.hatchOpen 0 ≠ .restart dt :=
  ⟨rfl, nofun, nofun, nofun, nofun, nofun, nofun, nofun, nofun, nofun, nofun⟩

/-! ### Nonvolatile store and deposit log (05) -/

/-- The station with the row of slots 4 and 5 being programmed and an empty row waiting. -/
def programming : Node := station.withStore { Store.factory with
  staging := [⟨.card, 2, cardRow (some resident) none⟩, ⟨.card, 3, List.replicate 16 0⟩], programEnds := some 1000004000 }

theorem witness_ProgrammedRowHoldsItsContent :
    programming.StationRuns ∧ programming.StoreForm ∧ programming.FreedLaw ∧
      programming.store.programEnds = some 1000004000 ∧ programming.store.staging.head?.map (·.bytes.length) = some 16 :=
  ⟨by decide, rfl, ⟨by decide, nofun, by decide⟩, rfl, by decide +kernel⟩

theorem test_rowProgramEnd_writes_the_row :
    (after programming (.rowProgramEnd 0)).store.readRow .card 2 = some (cardRow (some resident) none) ∧
      (after programming (.rowProgramEnd 0)).store.programEnds = some 1000008000 ∧
      (after programming (.supplyFails 0)).store.readRow .card 2 = none := by decide +kernel

/-- The station with a full staging queue whose oldest program runs, accounting due or not, and operations waiting to be
worked. -/
def crammed (due : Bool) (ops : List (Nat × CardOp)) : Node :=
  ((working ops).withStore { Store.factory with
    staging := List.replicate 4 ⟨.card, 2, List.replicate 16 0⟩, programEnds := some 1000004000 }).withLog
      { station.log with due := due }

/-- A REMOVE of a card of the table, which changes a row. -/
def removal : List (Nat × CardOp) := [(1, .remove 1)]

theorem witness_FreedLaw (due : Bool) (ops : List (Nat × CardOp)) : (crammed due ops).FreedLaw :=
  ⟨Nat.le_refl 4, nofun, Nat.zero_le _⟩

theorem witness_ProgrammedRowHoldsItsContent_entries :
    let n := crammed true removal
    let ended := after n (.rowProgramEnd 0)
    n.StationActs ∧ n.log.pair = .none ∧ n.log.hasWork = true ∧
      4 ≤ n.store.staging.length + n.store.forLog + n.store.forCards ∧ ended.store.forLog = 1 ∧
      (crammed false removal).log.hasWork = false ∧ (crammed false removal).cards.rowsWaiting = 1 ∧
      (after (crammed false removal) (.rowProgramEnd 0)).store.forCards = 1 ∧
      programming.store.staging.length + 0 + 0 < 4 ∧ ((inSafe hatch).withStore programming.store).StationActs := by
  decide +kernel

theorem witness_FreedLaw_kept :
    (after (crammed false removal) (.rowProgramEnd 0)).FreedLaw ∧ (after (crammed true removal) (.rowProgramEnd 0)).FreedLaw :=
  ⟨⟨by decide +kernel, by decide +kernel, by decide +kernel⟩, ⟨by decide +kernel, by decide +kernel, by decide +kernel⟩⟩

/-- R89: an entry that frees in a full queue is the log's while it has a write waiting; with none the card table takes it. -/
theorem test_rowProgramEnd_gives_the_entry :
    let ended (due : Bool) := after (crammed due removal) (.rowProgramEnd 0)
    (ended true).cardsAdmitted = false ∧ (after (ended true) (.rowProgramEnd 0)).cardsAdmitted = false ∧
      (ended false).cardsAdmitted = true := by decide +kernel

/-- R89: an entry that frees while only the card table waits is the card table's, though a record of the log comes before its
command; it is open to both when neither waits. -/
theorem test_freed_entry_of_the_cards :
    let ended := after (crammed false removal) (.rowProgramEnd 0)
    let asked := ended.withLog { ended.log with appendList := [(record 0).entry] }
    let none := after (crammed false []) (.rowProgramEnd 0)
    (after asked (.recordAppend 0)).log.held = [] ∧ (after asked (.remove 0)).cards.entries = 1 ∧
      (after asked (.remove 0)).store.forCards = 0 ∧ none.store.forCards = 0 ∧
      ((none.withLog asked.log).logReady = true) := by decide +kernel

/-- R89: with an entry kept for the card table, a record row placed and its accounting row waiting, the card row waits for both
rows of the accounting row write, and then takes its entry. -/
theorem test_no_card_row_between_the_rows_of_a_record :
    let ended := after (crammed false removal) (.rowProgramEnd 0)
    let two := ended.withStore { ended.store with staging := ended.store.staging.drop 1 }
    let begun := after (two.withLog { two.log with appendList := [(record 0).entry] }) (.recordAppend 0)
    let waits := after begun (.remove 0)
    let ends := after (after waits (.rowProgramEnd 0)) (.rowProgramEnd 0)
    begun.store.staging.length = 3 ∧ begun.store.forCards = 1 ∧ waits.cards.entries = 2 ∧ waits.store = begun.store ∧
      ends.store.staging.map (fun w => (w.region, w.row)) = [(.log, 1), (.accounting, 0), (.accounting, 1)] ∧
      (after ends (.remove 0)).cards.entries = 1 := by decide +kernel

/-- The station with row writes of card rows in the staging queue, the first of them replaced, and the log at a place in its
accounting row write. -/
def pairing (first : RowWrite) (more : Nat) (pair : AccountingPair) : Node :=
  ((holding [record 0, record 1] 2).withStore { Store.factory with
    staging := first :: List.replicate more ⟨.card, 3, List.replicate 16 0⟩, programEnds := some 1000004000 }).withLog
      { (holding [record 0, record 1] 2).log with pair := pair, due := true }

/-- The row write of record 1. -/
def rowOfOne (confirmed : Bool) : RowWrite := ⟨.log, 1, logRow { record 1 with confirmed := confirmed }⟩

theorem witness_ProgrammedRowHoldsItsContent_pair :
    let full := pairing (rowOfOne false) 3 .both
    let free := pairing (rowOfOne false) 2 .both
    let half := pairing (rowOfOne true) 3 (.lifetimeRow (List.replicate 16 7))
    full.StationActs ∧ full.StoreForm ∧ full.FreedLaw ∧ full.store.staging.length = 4 ∧ full.log.pair = .both ∧
      free.store.staging.length = 3 ∧ half.log.pair = .lifetimeRow (List.replicate 16 7) ∧
      (rowOfOne false).bytes.length = 16 ∧ (record 1).seq.toNat % 1024 = 1 ∧ (∃ x ∈ full.log.held, x.seq = (record 1).seq) ∧
      (programming.store.staging.head?.map (·.region)) = some .card :=
  ⟨by decide, rfl, ⟨by decide, nofun, Nat.zero_le _⟩, rfl, rfl, rfl, rfl, by decide +kernel, by decide,
    ⟨record 1, by decide, rfl⟩, rfl⟩

/-- R89, R92, R95: with one entry freed the accounting row enters and the lifetime row is still to be placed; with two both
enter; then the lifetime row as it was taken; and the committed mark advances with a row that is not CONFIRMED. -/
theorem test_rowProgramEnd_places_the_pair :
    let ended (n : Node) := after n (.rowProgramEnd 0)
    let places (n : Node) := (ended n).store.staging.map (fun w => (w.region, w.row))
    places (pairing (rowOfOne false) 3 .both) = List.replicate 3 (.card, 3) ++ [(.accounting, 0)] ∧
      (ended (pairing (rowOfOne false) 3 .both)).log.pair =
        .lifetimeRow (lifetimeRow (holding [] 2).log.accounting) ∧
      places (pairing (rowOfOne false) 2 .both) = [(.card, 3), (.card, 3), (.accounting, 0), (.accounting, 1)] ∧
      (ended (pairing (rowOfOne true) 3 (.lifetimeRow (List.replicate 16 7)))).store.staging.getLast? =
        some ⟨.accounting, 1, List.replicate 16 7⟩ ∧
      (ended (pairing (rowOfOne false) 3 .both)).log.committed = some 1 ∧
      (ended (pairing (rowOfOne true) 3 .both)).log.committed = none := by decide +kernel

theorem witness_OnlyAProgramOrAStartChangesARow :
    exec (.lift 0) ⟨station, []⟩ = .next ⟨after station (.lift 0), []⟩ ∧
      (∀ dt, Instr.lift 0 ≠ .rowProgramEnd dt) ∧ ∀ dt, Instr.lift 0 ≠ .restart dt :=
  ⟨rfl, nofun, nofun⟩

/-- The station with items to append and records held. -/
def appending (held : List LogRecord) (items : List LogEntry) : Node :=
  station.withLog { station.log with held := held, appendList := items, due := true, mark := some (record 0) }

theorem witness_LogWritesAreTakenInOrder_append :
    (appending [] [forced]).StationRuns ∧ (appending [] [forced]).logReady = true ∧
      (appending [] [forced]).log.held.length < 1024 ∧ forced.isRestart = false ∧
      1024 ≤ (appending (List.replicate 1024 (record 0)) [forced, (record 0).entry]).log.held.length ∧
      (appending (List.replicate 1024 (record 0)) [forced, (record 0).entry]).logReady = true := by decide +kernel

/-- The station with a pending mark of an old record, whose row the next append takes or not. -/
def marking (old : Sequence) : Node :=
  let n := appending [record 1025] [forced]
  n.withLog { n.log with mark := some (record old), accounting := { n.log.accounting with next := 1026 } }

theorem witness_LogWritesAreTakenInOrder_mark :
    (marking 2).StationActs ∧ (marking 2).logReady = true ∧ (marking 2).log.appendList = [forced] ∧
      (marking 2).log.held.length < 1024 ∧ (marking 2).log.mark = some (record 2) ∧
      (record 2).seq.toNat % 1024 = (marking 2).log.accounting.next.toNat % 1024 ∧
      (record 3).seq.toNat % 1024 ≠ (marking 3).log.accounting.next.toNat % 1024 ∧
      ((marking 2).withLog { (marking 2).log with mark := none }).log.mark = none := by decide

/-- R103: a mark whose row the append gives to a newer record is discarded. -/
theorem test_recordAppend_discards_the_mark :
    (after (marking 2) (.recordAppend 0)).log.mark = none ∧
      (after (marking 3) (.recordAppend 0)).log.mark = some (record 3) := by decide +kernel

theorem witness_LogWritesAreTakenInOrder_overflow :
    (appending [] [overflowed]).logReady = true ∧ overflowed.isOverflow = true ∧ forced.isOverflow = false ∧
      (record 0).entry.isOverflow = false := by decide

theorem witness_LogWritesAreTakenInOrder_writes :
    (appending [] []).StationRuns ∧ (appending [] []).logReady = true ∧ (appending [] []).log.due = true ∧
      (appending [] []).log.appendList = [] ∧ (appending [] []).log.mark = some (record 0) ∧
      (appending [] []).log.markAhead = 0 := by decide

/-- The station whose log has a mark to write into the one entry kept for it, and a row of the card table waits. -/
def lastWrite : Node :=
  ((working removal).withStore { Store.factory with
    staging := List.replicate 3 ⟨.card, 2, List.replicate 16 0⟩, programEnds := some 1000004000, forLog := 1 }).withLog
      { station.log with mark := some (record 0) }

theorem witness_LogWritesAreTakenInOrder_entries :
    lastWrite.StationActs ∧ lastWrite.logReady = true ∧ lastWrite.log.appendList = [] ∧ lastWrite.log.due = false ∧
      4 ≤ lastWrite.store.staging.length + lastWrite.store.forLog + lastWrite.store.forCards ∧
      (crammed true []).logReady = false ∧ (crammed true []).StationActs ∧
      (appending [] []).store.staging.length + 0 + 0 < 4 := by decide

/-- R89: the log's last write uses the entry kept for it. -/
theorem test_confirmMarkWrite_uses_the_entry :
    (after lastWrite (.confirmMarkWrite 0)).store.staging.length = 4 ∧
      (after lastWrite (.confirmMarkWrite 0)).store.forLog = 0 ∧
      (after lastWrite (.confirmMarkWrite 0)).store.forCards = 0 := by decide +kernel

/-- A RESTART record. -/
def restart : LogEntry := ⟨.restart 0, 20, none, .residual, none⟩

theorem witness_LogWritesAreTakenInOrder_rebuild :
    let n := (appending [record 0] [restart]).withTally Tally.start
    n.StationActs ∧ n.logReady = true ∧ ([] : List LogEntry).any LogEntry.isRestart = false ∧ n.tally.rebuilt = false ∧ n.tally.entries = [] ∧
      [restart].any LogEntry.isRestart = true ∧
      ((inSafe hatch).withLog n.log).StationActs ∧
      ∃ cards : List CardNumber, cards.length ≤ 384 ∧ ∀ card, (n.log.held.filter (fun r =>
          match r.entry.body with
          | .deposit c _ _ _ _ => c == card && r.entry.day == n.clock.day
          | _ => false)) ≠ [] → card ∈ cards := by
  refine ⟨by decide, by decide, rfl, rfl, rfl, rfl, by decide, [1], by decide, fun card h => ?_⟩
  by_contra hne
  refine h (List.filter_eq_nil_iff.mpr fun r hr => ?_)
  obtain rfl : r = record 0 := List.mem_singleton.mp hr
  have hc : (1 : CardNumber) ≠ card := fun e => hne (List.mem_singleton.mpr e.symm)
  have : ((1 : CardNumber) == card) = false := by simpa using hc
  show ¬ ((1 : CardNumber) == card && _) = true
  rw [this]
  simp

/-- R76: the rebuild counts the held deposits of the day with the RESTART record. -/
theorem test_recordAppend_rebuilds :
    (after ((appending [record 0] [restart]).withTally Tally.start) (.recordAppend 0)).tally =
      { Tally.start with entries := [⟨1, 1, 0, 1⟩], touches := 1, rebuilt := true } := by decide +kernel

/-- R76, R99: an item ahead of the RESTART record makes no rebuild; with the RESTART record lost for a summary, the summary's
append makes it. -/
theorem test_recordAppend_rebuilds_without_the_restart :
    let lost (n : Node) := n.withLog (n.log.summarise n.summaryEntry)
    let n := (appending [record 0] [forced, forced, restart]).withTally Tally.start
    (after n (.recordAppend 0)).tally.rebuilt = false ∧ (lost n).log.appendList.any LogEntry.isRestart = false ∧
      (after (lost n) (.recordAppend 0)).tally.entries = [⟨1, 1, 0, 1⟩] := by decide +kernel

theorem test_recordAppend :
    (after (appending [] [forced]) (.recordAppend 0)).log.held = [⟨1, forced, false⟩] ∧
      (after (appending [] [forced]) (.recordAppend 0)).store.staging.map (fun w => (w.region, w.row)) =
        [(.log, 1), (.accounting, 0), (.accounting, 1)] := by decide +kernel

/-- The station with records 0 to 2 held and committed, and a HARVEST REQUEST heard (12.2: tag, sequence, count). -/
def harvesting (payload : List Byte) (harvest : Option Harvest) : Node :=
  let n := hearing (holding [record 0, record 1, record 2] 3) .harvestRequest payload
  n.withLog { n.log with committed := some 2, harvest := harvest }

theorem witness_HarvestIsFixedAndAnswered :
    (harvesting [9, 1, 0, 0, 30] none).StationRuns ∧ (harvesting [9, 1, 0, 0, 30] none).log.phase = .opened ∧
      ((harvesting [9, 1, 0, 0, 30] none).line.buffer.find? (fun r => r.telegram.kind.taker == .log)).map
        (·.telegram.kind) = some .harvestRequest ∧
      (harvesting [] (some ⟨9, some 2, 1, false, 30, none⟩)).StationRuns ∧
      (harvesting [] (some ⟨9, some 2, 1, false, 30, none⟩)).line.waiting = [] ∧
      (harvesting [] (some ⟨9, some 2, 1, false, 30, none⟩)).line.queue.length < 6 := by decide

theorem witness_HarvestIsFixedAndAnswered_waits :
    let n := harvesting [] (some ⟨9, some 2, 1, false, 30, none⟩)
    let full := n.withLine { n.line with queue := List.replicate 6 (queued .call [] false 0 .callUnit) }
    let behind := n.withLine { n.line with waiting := [.status] }
    full.StationRuns ∧ 6 ≤ full.line.queue.length ∧ Producer.harvest ∉ full.line.waiting ∧ behind.line.waiting ≠ [] ∧
      Producer.harvest ∉ behind.line.waiting := by decide

theorem test_harvestAnswer_to_the_end :
    (after (harvesting [] (some ⟨9, some 2, 1, false, 30, none⟩)) (.harvestAnswer 0)).log.harvest =
      some ⟨9, some 2, 3, false, 28, some true⟩ := by decide +kernel

/-- The station with records 0 to 2 held and a HARVEST CONFIRM heard. -/
def confirming (payload : List Byte) : Node := hearing (holding [record 0, record 1, record 2] 3) .harvestConfirm payload

theorem witness_ConfirmFreesUpToTheSequence :
    (confirming [1, 0, 0]).StationRuns ∧ (confirming [1, 0, 0]).log.phase = .opened ∧
      ((confirming [1, 0, 0]).line.buffer.find? (fun r => r.telegram.kind.taker == .log)).map
        (fun r => (r.telegram.kind, field r.telegram.payload 0 3)) = some (.harvestConfirm, 1) ∧
      ((confirming [1, 0, 0]).log.held[1]?).map (·.seq) = some 1 ∧
      ((3#24 - 2#24).toNat = 1 ∧ (8388609#24 - 2#24).toNat = 8388607 ∧ (8388610#24 - 2#24).toNat = 8388608) := by
  decide

theorem witness_LogLaw (payload : List Byte) : (confirming payload).LogLaw := by
  refine ⟨by show 3 ≤ 1024; decide, fun k r h => ?_, by show ∀ r ∈ [record 0, record 1, record 2], _; decide⟩
  have h' : [record 0, record 1, record 2][k]? = some r := h
  show r.seq = 3#24 - BitVec.ofNat 24 3 + BitVec.ofNat 24 k
  match k, h' with
  | 0, h' => cases h'; decide
  | 1, h' => cases h'; decide
  | 2, h' => cases h'; decide
  | k + 3, h' => simp at h'

/-- The same with lost records counted, and items waiting. -/
def summing (items : List LogEntry) : Node :=
  (confirming [1, 0, 0]).withLog { (confirming [1, 0, 0]).log with
    lost := 3, appendList := items, accounting := { (confirming [1, 0, 0]).log.accounting with overflowCharge := 40 } }

/-- A DEPOSIT that waits. -/
def deposited : LogEntry := (record 0).entry

theorem witness_ConfirmFreesUpToTheSequence_summary :
    (confirming [1, 0, 0]).log.accounting.overflowCount = 0 ∧ (confirming [1, 0, 0]).log.lost = 0 ∧
      (summing [deposited]).log.lost ≠ 0 ∧ (summing [deposited]).log.eventsHeld < 3 ∧
      3 ≤ (summing [forced, forced, forced, deposited]).log.eventsHeld ∧ forced.isDeposit = false ∧
      [forced, forced, forced, deposited] = [forced, forced] ++ forced :: [deposited] ∧
      (∀ x ∈ [deposited], x.isDeposit = true) ∧ (summing []).StationRuns ∧ (summing []).log.phase = .opened := by decide

/-- R99, R103: the summary enters ahead of what waits, the counts start again, and with the event list full its newest record is
lost for it. -/
theorem test_harvestConfirm_summary :
    let freed (items : List LogEntry) := (after (summing items) (.harvestConfirm 0)).log
    (freed [deposited]).appendList.map (·.body) = [.overflowSummary 0 40 3, deposited.body] ∧ (freed [deposited]).lost = 0 ∧
      (freed [deposited]).markAhead = 2 ∧ (freed [deposited]).accounting.overflowCharge = 0 ∧
      (freed [forced, forced, forced, deposited]).appendList.map (·.body) =
        [.overflowSummary 0 40 3, .forced, .forced, deposited.body] ∧
      (freed [forced, forced, forced, deposited]).lost = 1 := by decide +kernel

theorem test_harvestConfirm_frees_two :
    (after (confirming [1, 0, 0]) (.harvestConfirm 0)).log.held = [record 2] ∧
      (after (confirming [1, 0, 0]) (.harvestConfirm 0)).log.mark = some (record 1) := by decide +kernel

/-- An UNANNOUNCED EMPTY record with sequence number 0, at day 0 and time 0 with fill unknown. -/
def emptied : LogRecord := ⟨0, ⟨.unannouncedEmpty, 0, some 0, .residual, some 0⟩, false⟩

/-- A store with that record, marked or not, and an accounting row of a next sequence number, or with the accounting row as it
left the factory; the accounting row torn or not. -/
def scanStore (next : Option Sequence) (confirmed torn : Bool) : Store :=
  let cells := Memory.writeAll [] (16 * 1088) (logRow { emptied with confirmed := confirmed })
  let row := next.map (fun q => accountingRow { Accounting.initial with next := q })
  { Store.factory with
    cells := row.elim cells (Memory.writeAll cells (16 * 2112)), torn := if torn then [(2112, 0)] else [] }

/-- A station whose log is SCANNING that store. -/
def logScanning (next : Option Sequence) (confirmed torn : Bool) : Node :=
  (station.withLog Log.start).withStore (scanStore next confirmed torn)

/-- A byte that no cell lists reads 0. -/
theorem read_unlisted (cells : List Host.Cell) (a : Nat) (h : ∀ p ∈ cells, p.1 ≠ a) : Memory.read cells a = 0#8 := by
  induction cells with
  | nil => rfl
  | cons p rest ih =>
    rw [Memory.read, if_neg (h p List.mem_cons_self), ih fun q hq => h q (List.mem_cons_of_mem _ hq)]

/-- A store whose cells lie before log row 1 or behind the log, with no torn row of the log but row 0, holds no record in a
row from 1 to 1,023. -/
theorem no_other_record {st : Store} (hc : ∀ p ∈ st.cells, p.1 < 17424 ∨ 33792 ≤ p.1)
    (ht : ∀ row, row < 1024 → tearOf st.torn (1088 + row) = none) (row : Nat) (h1 : 1 ≤ row) (h2 : row < 1024) :
    st.logRecord row = none := by
  have zeros : ∀ n a, 17424 ≤ a → a + n ≤ 33792 → Memory.readAll st.cells a n = List.replicate n 0#8 := by
    intro n
    induction n with
    | zero => intros; rfl
    | succ n ih =>
      intro a ha hn
      rw [Memory.readAll, read_unlisted st.cells a (fun p hp => by have := hc p hp; omega), ih (a + 1) (by omega) (by omega),
        List.replicate_succ]
  have e : st.readRow .log row = some (List.replicate 16 0#8) := by
    have tear : tearOf st.torn (rowPlace .log row) = none := ht row h2
    have bytes : Memory.readAll st.cells (16 * rowPlace .log row) 16 = List.replicate 16 0#8 :=
      zeros 16 (16 * (1088 + row)) (by omega) (by omega)
    rw [Store.readRow, tear]
    simp only [bytes]
    rfl
  rw [Store.logRecord, e]
  rfl

/-- The record is the newest one found in each of the stores of these tests. -/
theorem scanStore_newest {st : Store} (w : LogRecord) (hw : st.logRecord 0 = some w)
    (hc : ∀ p ∈ st.cells, p.1 < 17424 ∨ 33792 ≤ p.1) (ht : ∀ row, row < 1024 → tearOf st.torn (1088 + row) = none) :
    (∃ row, row < 1024 ∧ st.logRecord row = some w) ∧
      ∀ r, (∃ row, row < 1024 ∧ st.logRecord row = some r) → (w.seq - r.seq).toNat < 1024 := by
  refine ⟨⟨0, by decide, hw⟩, fun r ⟨row, hrow, hr⟩ => ?_⟩
  rcases Nat.eq_zero_or_pos row with rfl | hpos
  · rw [hw] at hr
    obtain rfl := Option.some.inj hr
    simp
  · rw [no_other_record hc ht row hpos hrow] at hr
    cases hr

/-- No row of the log is torn in the stores of these tests. -/
theorem scanStore_untorn (next : Option Sequence) (confirmed torn : Bool) (row : Nat) (h : row < 1024) :
    tearOf (scanStore next confirmed torn).torn (1088 + row) = none := by
  have hne : (2112 : Nat) ≠ 1088 + row := by omega
  cases torn <;> simp [scanStore, tearOf, hne]

/-- The hypotheses on the newest record, unmarked, for N torn, w + 1, w, the last one beyond, the first one before, and w marked. -/
theorem witness_LogScanHoldsTheNewestRunAndRepairs_newest (case : Option Sequence × Bool × Bool)
    (h : case ∈ [(none, false, true), (some 1, false, false), (some 0, false, false), (some 0x800000, false, false),
      (some 0x800001, false, false), (some 1, true, false)]) :
    let st := scanStore case.1 case.2.1 case.2.2
    let w := { emptied with confirmed := case.2.1 }
    (∃ row, row < 1024 ∧ st.logRecord row = some w) ∧
      ∀ r, (∃ row, row < 1024 ∧ st.logRecord row = some r) → (w.seq - r.seq).toNat < 1024 := by
  simp only [List.mem_cons, List.not_mem_nil, or_false] at h
  intro st w
  obtain ⟨hw, hc⟩ : st.logRecord 0 = some w ∧ ∀ p ∈ st.cells, p.1 < 17424 ∨ 33792 ≤ p.1 := by
    rcases h with rfl | rfl | rfl | rfl | rfl | rfl <;> decide +kernel
  exact scanStore_newest w hw hc (scanStore_untorn case.1 case.2.1 case.2.2)

theorem witness_LogScanHoldsTheNewestRunAndRepairs_rows :
    (scanStore none false true).readRow .accounting 0 = none ∧
      [some 1, some 0, some 0x800000, some 0x800001].map (fun q =>
        ((scanStore q false false).readRow .accounting 0).map (fun b =>
          ((readAccountingRow b .initial).next - (emptied.seq + 1)).toNat)) =
        [some 0, some 16777215, some 8388607, some 8388608] ∧
      ((scanStore none false false).readRow .accounting 1).isSome = true := by decide +kernel

/-- The factory store holds no record at all. -/
theorem witness_LogScanHoldsTheNewestRunAndRepairs_empty (r : LogRecord) :
    ¬ ∃ row, row < 1024 ∧ Store.factory.logRecord row = some r := by
  rintro ⟨row, hrow, hr⟩
  rcases Nat.eq_zero_or_pos row with rfl | hpos
  · have first : Store.factory.logRecord 0 = none := by decide +kernel
    rw [first] at hr
    cases hr
  · rw [no_other_record (by simp [Store.factory]) (fun _ _ => rfl) row hpos hrow] at hr
    cases hr

theorem witness_LogScanHoldsTheNewestRunAndRepairs_runs :
    let n := (logScanning (some 1) false false).withHatch { hatch with station := .starting }
    n.StationActs ∧ n.log.phase = .scanning ∧ n.log.early = [] ∧ n.control.phase = .running ∧ n.hatch.station = .starting ∧
      n.cards.phase ≠ .scanning ∧ n.pressHome = true ∧ n.hatch.firstSounding = true ∧
      ((inSafe hatch).withLog Log.start).StationActs := by decide

theorem witness_LogScanHoldsTheNewestRunAndRepairs_held : (scanStore none false false).scanLog.held = [emptied] := by
  have found : (scanStore none false false).foundRecords = [emptied] := by
    have first : (scanStore none false false).logRecord 0 = some emptied := by decide +kernel
    have cells : ∀ p ∈ (scanStore none false false).cells, p.1 < 17424 ∨ 33792 ≤ p.1 := by decide +kernel
    have others : ∀ row ∈ List.range' 1 1023, (scanStore none false false).logRecord row = none := fun row h =>
      no_other_record cells (scanStore_untorn none false false) row (List.mem_range'_1.mp h).1
        (by have := (List.mem_range'_1.mp h).2; omega)
    have rows : List.range logCapacity = 0 :: List.range' 1 1023 := by decide +kernel
    rw [Store.foundRecords, rows, List.filterMap_cons, first, List.filterMap_eq_nil_iff.mpr others]
  rw [Store.scanLog, found]
  decide +kernel

/-- R107: a DAY CLOSE is folded as a rollover, which clears ACCOUNTING REBUILT; a DEPOSIT of a later day takes its day first. -/
theorem test_fold :
    let a : Accounting := { Accounting.initial with day := 20, total := 100, count := 3, next := 5, rebuilt := true }
    (a.fold ⟨5, ⟨.dayClose 100 3 0, 20, none, .residual, none⟩, false⟩) =
        { Accounting.initial with day := 21, next := 6 } ∧
      (a.fold { record 5 with entry := { (record 5).entry with day := 21 } }).total = 40 := by decide

/-! ### Press control and island power claims (06) -/

/-- The station having heard a telegram of the press on island 3 from station 9. -/
def islandHears (kind : Kind) (payload : List Byte) : Node :=
  (hearing station kind payload).withPress { station.press with claims := [⟨9, 1010000000⟩, ⟨8, 1020000000⟩] }

theorem witness_IslandClaimListFollowsTheLine :
    (islandHears .pressClaim [3, 50]).StationRuns ∧
      (islandHears .pressClaim [3, 50]).control.settings.pressFitted = true ∧
      ((islandHears .pressClaim [3, 50]).line.buffer.find? (fun r => r.telegram.kind.taker == .press)).map
        (·.telegram.kind) = some .pressClaim ∧
      ((islandHears .pressRelease [3]).line.buffer.find? (fun r => r.telegram.kind.taker == .press)).map
        (·.telegram.kind) = some .pressRelease ∧
      firstExpiring (islandHears .pressRelease [3]).press.claims = some ⟨9, 1010000000⟩ ∧
      (islandHears .pressRelease [3]).press.claims.length ≤ 8 ∧
      (islandHears .pressRelease [3]).press.claims.Pairwise (fun a b => a.address ≠ b.address) := by decide

/-- A claimed duration of 0 is taken as 1 s and one above 60 s as 60 s, from the end of the reception on; another island's
claim changes nothing. -/
theorem test_pressClaim_durations :
    (after (islandHears .pressClaim [3, 0]) (.pressClaim 0)).press.claims = [⟨8, 1020000000⟩, ⟨9, 1005999000⟩] ∧
      (after (islandHears .pressClaim [3, 61]) (.pressClaim 0)).press.claims = [⟨8, 1020000000⟩, ⟨9, 1064999000⟩] ∧
      (after (islandHears .pressClaim [4, 50]) (.pressClaim 0)).press.claims = (islandHears .pressClaim [4, 50]).press.claims := by
  decide

/-- The station with its own claim in transmission. -/
def claimSent (press : Press) : Node :=
  (queueing [queued .pressClaim [3, 50] true 0 .pressUnit] .sending).withPress { press with state := .claiming, claim := .queued }

theorem witness_OwnClaimIsJudgedWhenSent :
    (claimSent station.press).StationRuns ∧ (claimSent station.press).line.transmitter = .sending ∧
      (claimSent station.press).line.queue.find? (·.sending) = some (queued .pressClaim [3, 50] true 0 .pressUnit) ∧
      (queued .pressClaim [3, 50] true 0 .pressUnit).owner = .pressUnit ∧
      (queued .pressClaim [3, 50] true 0 .pressUnit).telegram.kind = .pressClaim ∧
      (claimSent station.press).press.state = .claiming := by decide

/-- With limit 1 a claim behind no other is granted, and behind another is refused; a low supply inhibits. -/
theorem test_transmissionSent_judges :
    (after (claimSent station.press) (.transmissionSent 0 false)).press.drive =
        some ⟨.forward, 30, 1000000000, 1000100000⟩ ∧
      (after (claimSent { station.press with claims := [⟨9, 1010000000⟩] }) (.transmissionSent 0 false)).press.state = .home ∧
      (after (claimSent station.press) (.transmissionSent 0 true)).press.inhibit = some 1600000000 := by decide +kernel

theorem witness_OwnClaimIsJudgedWhenSent_waits :
    let p := { station.press with lastDirection := some .reverse, offSince := 999750001 }
    (claimSent p).StationRuns ∧ p.lastDirection = some .reverse ∧ 1000000000 + 0 < p.offSince + 250000 ∧
      (claimSent p).hatch.phase = .idle := by decide

/-- The press in forward drive at a duty. -/
def forwarding (duty : Nat) : Press := { station.press with
  state := .forward, drive := some ⟨.forward, duty, 999000000, 1000100000⟩, lastDirection := some .forward
  claim := .opened, offSince := 0 }

/-- The press in its dwell, the outputs off since now. -/
def dwelling : Press := { station.press with
  state := .dwell, kind := .normal, dwellEnds := some 1002000000, offSince := 1000000000, lastDirection := some .forward }

/-- The press on its way back. -/
def reversing (kind : ReverseKind) : Press := { station.press with
  state := .reversing, kind := kind, drive := some ⟨.reverse, 100, 999000000, 1000100000⟩
  lastDirection := some .reverse, homeSwitch := .inactive, offSince := 0, claim := .opened }

theorem witness_StrokeRunsThroughItsPhases_waits :
    let r := presses { station.press with retry := some 1010000000 }
    let i := presses { station.press with state := .inhibited, inhibit := some 1010000000 }
    r.StationRuns ∧ r.control.settings.pressFitted = true ∧ r.press.retry = some 1010000000 ∧
      r.line.queue.length < 6 ∧ i.StationRuns ∧ i.press.inhibit = some 1010000000 ∧ i.press.state = .inhibited ∧
      i.press.retry = none := by decide

theorem witness_StrokeRunsThroughItsPhases_triggers :
    let n := (sounds { station.sounding with fill := some 600 }).withPress
      { station.press with retry := some 1010000000, deposits := 4 }
    n.hatch.station = .ready ∧ n.sounding.fill = some 600 ∧ n.control.settings.pressThreshold ≤ 600 ∧
      4 ≤ n.press.deposits ∧ n.inPressHours = true ∧ n.hatch.phase = .idle ∧ n.hatch.hatch = .closed ∧
      n.hatch.lift = .seated ∧ n.sounding.flight = none ∧ n.press.state = .home := by decide

theorem witness_StrokeRunsThroughItsPhases_drive :
    (presses (forwarding 93)).StationRuns ∧ (presses (forwarding 93)).press.drive.map (·.duty) = some 93 ∧
      (presses (forwarding 93)).press.forwardDue = none ∧ (presses (forwarding 93)).press.state = .forward ∧
      (presses dwelling).StationRuns ∧ (presses dwelling).press.state = .dwell ∧
      (presses dwelling).press.dwellEnds = some 1002000000 ∧ (presses (reversing .normal)).StationRuns ∧
      (presses (reversing .normal)).press.state = .reversing ∧
      (presses (reversing .normal)).press.drive.isSome = true := by decide

/-- The press on its way back, the own entry in the claim list behind another's. -/
def claimed (claim : OwnClaim) : Node :=
  presses { reversing .normal with claim := claim, claims := [⟨9, 1010000000⟩, ⟨7, 1050000000⟩] }

theorem witness_StrokeRunsThroughItsPhases_limit :
    (claimed .opened).StationRuns ∧ (claimed .opened).press.state = .reversing ∧ (claimed .opened).press.claim = .opened ∧
      (claimed .opened).line.queue.length ≤ 4 ∧ (claimed .absent).press.claim ≠ .opened ∧
      (claimed .opened).press.drive = some ⟨.reverse, 100, 999000000, 1000100000⟩ := by decide

/-- R119, R124: at 25 s the own claim is released and its entry leaves the list; without one nothing is released. -/
theorem test_reverseTimeLimit_releases :
    let limit (claim : OwnClaim) := after (claimed claim) (.reverseTimeLimit 0)
    (limit .opened).press.claims = [⟨9, 1010000000⟩] ∧
      (limit .opened).line.queue.any (fun e => e.telegram == station.telegram .pressRelease 0 [3]) = true ∧
      (limit .absent).press.claims = (claimed .absent).press.claims ∧
      (limit .absent).line.queue.any (fun e => e.telegram.kind == .pressRelease) = false := by decide +kernel

/-- R22: a forward drive that starts abandons a sounding in flight. -/
theorem test_drive_abandons_the_sounding :
    (after ((sounds { fifthSlot with flight := some ⟨true, false, 8, [], none, none⟩ }).withPress { station.press with
      state := .forward, forwardDue := some 1000100000, lastDirection := some .reverse, offSince := 999850000 })
        (.softStartStep 0)).sounding.request = some ⟨1003100000, true, false⟩ := by decide +kernel

/-- R120: the duty rises by 7% and stops at 100%; R121: the load comparator counts only at 100%. -/
theorem test_soft_start_and_trip :
    (after (presses (forwarding 93)) (.softStartStep 0)).press.drive.map (·.duty) = some 100 ∧
      (after (presses (forwarding 98)) (.softStartStep 0)).press.drive.map (·.duty) = some 100 ∧
      (after (presses (forwarding 93)) (.loadTrip 0)).press.state = .forward ∧
      (after (presses (forwarding 100)) (.loadTrip 0)).press.dwellEnds = some 1002000000 := by decide +kernel

/-- The press in FORWARD with a drive that waits for the dead interval. -/
def waiting : Press := { station.press with
  state := .forward, forwardDue := some 1000100000, lastDirection := some .reverse, offSince := 999850000, claim := .opened }

theorem witness_StrokeRunsThroughItsPhases_due :
    (presses waiting).StationRuns ∧ (presses waiting).control.settings.pressFitted = true ∧
      (presses waiting).press.forwardDue = some 1000100000 ∧ (presses waiting).press.drive = none ∧
      station.press.state ≠ .forward := by decide

/-- The waiting drive starts no earlier than 250 ms after the reverse drive; an end switch that reads INACTIVE ends nothing. -/
theorem test_waiting_drive_and_end_switch :
    (after (presses waiting) (.softStartStep 0)).press.drive = some ⟨.forward, 30, 1000100000, 1000200000⟩ ∧
      (after (presses (forwarding 50)) (.endSwitchActive ⟨0, false⟩)).press.state = .forward ∧
      (after (presses (forwarding 50)) (.endSwitchActive ⟨0, true⟩)).press.state = .dwell := by decide +kernel

theorem witness_HomeSwitchEndsTheReturn_active :
    let n := presses (reversing .normal)
    let m := (presses { reversing .recovery with claim := .absent }).withHatch { deferred with station := .outOfService }
    n.control.settings.pressFitted = true ∧ n.StationActs ∧ n.control.phase = .running ∧ n.press.state = .reversing ∧
      n.press.kind = .normal ∧ n.sounding.phase ≠ .stopped ∧ n.line.queue.length ≤ 4 ∧ station.press.state ≠ .reversing ∧
      m.StationActs ∧ m.press.state = .reversing ∧ m.press.kind = .recovery ∧ m.hatch.phase = .deferred ∧
      m.hatch.acceptance = some accepted ∧ m.hatch.station = .outOfService ∧ m.hatch.conditionsMet = true := by decide

/-- The press homing, in a station that waits for it to start. -/
def startingHome : Node :=
  (presses { Press.start 0 with homingFrom := some 1000000000 }).withHatch { hatch with station := .starting, conditionsMet := false }

theorem witness_HomeSwitchEndsTheReturn_starts :
    startingHome.StationActs ∧ startingHome.hatch.station = .starting ∧ startingHome.cards.phase ≠ .scanning ∧
      startingHome.log.phase = .opened ∧ startingHome.hatch.firstSounding = true ∧
      startingHome.press.homeSwitch = .unsettled ∧ startingHome.press.kind = .homing ∧
      startingHome.sounding.phase ≠ .held := by decide

/-- R45, R127: the switch that settles ACTIVE gives HOME without driving, and the station starts; nothing is released. -/
theorem test_homeSwitchSettled_starts :
    (after startingHome (.homeSwitchSettled 0 true none)).hatch.station = .ready ∧
      (after startingHome (.homeSwitchSettled 0 true none)).press.state = .home ∧
      (after startingHome (.homeSwitchSettled 0 false none)).press.drive =
        some ⟨.reverse, 30, 1000000000, 1000100000⟩ := by decide +kernel

theorem witness_HomeSwitchEndsTheReturn_homing :
    let n := presses { Press.start 0 with homingFrom := some 1000000000 }
    let m := presses { Press.start 0 with homingFrom := some 1000000001, homeSwitch := .inactive }
    n.StationRuns ∧ n.press.homeSwitch = .unsettled ∧ n.press.state = .reversing ∧ n.press.kind = .homing ∧
      n.press.drive = none ∧ n.press.homingFrom = some 1000000000 ∧ 1000000000 ≤ n.now ∧ m.StationRuns ∧
      m.press.homingFrom = some 1000000001 ∧ m.press.homeSwitch = .inactive ∧ m.press.homeSwitch ≠ .unsettled := by decide

theorem witness_HomeSwitchEndsTheReturn_change :
    (inSafe window).control.settings.pressFitted = true ∧ (inSafe window).StationActs ∧
      (inSafe window).press.state = .stopped ∧ (inSafe window).press.homeSwitch ≠ .unsettled ∧
      (inSafe window).hatch.phase = .window ∧ station.press.homeSwitch ≠ .unsettled ∧ station.press.state ≠ .stopped ∧
      (presses (reversing .normal)).press.state = .reversing := by decide

theorem test_homeSwitchActive_ends_the_cycle :
    (after (presses (reversing .normal)) (.homeSwitchActive 0 none)).press.state = .home ∧
      (after (presses (reversing .normal)) (.homeSwitchActive 0 none)).log.accounting.pressCycles = 1 ∧
      (after (presses (reversing .normal)) (.homeSwitchActive 0 none)).line.queue.any (fun e =>
        e.telegram == station.telegram .pressRelease 0 [3]) = true ∧
      (after (presses (reversing .homing)) (.homeSwitchActive 0 none)).line.queue.any (fun e =>
        e.telegram.kind == .pressRelease) = false := by decide +kernel

theorem witness_HomeSwitchEndsTheReturn_soundings :
    let n := (presses (reversing .homing)).withSounding { station.sounding with
      phase := .held, request := some ⟨999000000, true, false⟩ }
    n.StationActs ∧ n.control.phase = .running ∧ n.press.state = .reversing ∧ n.press.kind = .homing ∧
      n.sounding.phase = .held ∧ n.hatch.hatch = .closed ∧ n.hatch.lift = .seated := by decide

/-- R19, R21: a cycle's end arms a sounding 5 s later, or for the later due time of the request held; a homing's end starts the
sounding that is due. -/
theorem test_homeSwitchActive_and_the_sounding :
    let home (kind : ReverseKind) (due : Moment) := (after ((presses (reversing kind)).withSounding { station.sounding with
      phase := .held, request := some ⟨due, true, false⟩ }) (.homeSwitchActive 0 none)).sounding
    (home .normal 999000000).request = some ⟨1005000000, true, false⟩ ∧ (home .normal 999000000).phase = .waiting ∧
      (home .normal 1030000000).request = some ⟨1030000000, true, false⟩ ∧ (home .homing 999000000).phase = .inFlight ∧
      (home .homing 999000000).flight.map (·.start) = some true := by decide +kernel

theorem witness_OpeningInterruptsThePress :
    let f := presses (forwarding 100)
    let d := presses dwelling
    let r := presses (reversing .normal)
    f.StationRuns ∧ f.control.settings.pressFitted = true ∧ f.hatch.hatch = .closed ∧ f.hatch.lift = .seated ∧
      f.hatch.phase ≠ .deposit ∧ f.press.state = .forward ∧ d.press.state = .dwell ∧ r.press.state = .reversing ∧
      r.press.kind = .normal ∧ r.press.paused = false ∧
      r.press.drive = some ⟨.reverse, 100, 999000000, 1000100000⟩ ∧ (presses waiting).press.state = .forward := by decide

theorem witness_OpeningInterruptsThePress_resumed :
    let paused := { reversing .normal with paused := true, drive := none }
    let o := (presses paused).withHatch { hatch with hatch := .opened, phase := .forcedOpening }
    let l := (presses paused).withHatch { hatch with lift := .lifted }
    o.StationRuns ∧ o.press.state = .reversing ∧ o.press.paused = true ∧ o.hatch.phase ≠ .deposit ∧
      o.hatch.hatch = .opened ∧ o.hatch.lift = .seated ∧ l.hatch.lift = .lifted ∧ l.hatch.hatch = .closed := by decide

theorem witness_PressStartsUnderAGrantAndFromRest :
    exec (.transmissionSent 0 false) ⟨claimSent station.press, []⟩ =
        .next ⟨after (claimSent station.press) (.transmissionSent 0 false), []⟩ ∧
      (claimSent station.press).press.state ≠ .forward ∧
      (after (claimSent station.press) (.transmissionSent 0 false)).press.state = .forward ∧
      (claimSent station.press).press.drive.map (·.direction) ≠
        (after (claimSent station.press) (.transmissionSent 0 false)).press.drive.map (·.direction) :=
  ⟨rfl, by decide, by decide +kernel, by decide +kernel⟩

theorem witness_DriveLaw : (claimSent station.press).DriveLaw ∧ (presses dwelling).DriveLaw where
  left := ⟨by decide, nofun, nofun, by decide, by decide, by decide, nofun, nofun, by decide⟩
  right := by
    refine ⟨by decide, nofun, nofun, by decide, by decide, by decide, fun t _ h => ?_, nofun, by decide⟩
    have h' : some 1002000000 = some t := h
    cases h'
    decide

/-! ### The street line (07) and the layouts (12) -/

/-- R132: the register of the node with address 1 doubles until a bit reaches place 10. -/
theorem test_randomStep : randomStep 1 = 2#16 ∧ randomStep 0x0400 = 0x0801#16 ∧ randomStep 0x8000 = 1#16 := by decide

/-- A TALLY NOTICE entry, and the station deferring for it. -/
def noticeEntry (collisions : Nat) : QueueEntry := queued .tallyNotice [] false collisions .tallyUnit

theorem witness_CandidateDefersThenSends :
    let e := noticeEntry 0
    let c := noticeEntry 4
    let d := queueing [e] (.deferring 0 1000005000 e.telegram)
    (queueing [e] .idle).live = true ∧ (queueing [e] .idle).control.phase = .running ∧
      (queueing [e] .idle).line.transmitter = .idle ∧ (queueing [e] .idle).line.receiver ≠ .receiving ∧
      (queueing [e] .idle).line.queue.find? (fun e => !e.sending) = some e ∧ c.collisions ≠ 0 ∧
      (queueing [c] .idle).line.queue.find? (fun e => !e.sending) = some c ∧
      (queueing [e] .idle).line.polarity ≠ .undetected ∧ station.line.queue.find? (fun e => !e.sending) = none ∧
      (queueing [e] .idle).line.receiver = .listening ∧ d.line.transmitter = .deferring 0 1000005000 e.telegram ∧
      d.line.queue.find? (fun x => x.age == 0 && !x.sending) = some e ∧ (∀ x ∈ d.line.queue, x.sending = false) ∧
      ∀ x ∈ (queueing [] (.deferring 0 1000005000 e.telegram)).line.queue, x.age = 0 → x.sending = true := by decide

/-- The station deferring for a FILL NOTICE that has collided three times, on an inverted line. -/
def noticing (waiting taken : Byte) : Node :=
  let n := queueing [queued .fillNotice [waiting] false 3 .neighbourUnit]
    (.deferring 0 1000005000 (station.telegram .fillNotice 0 [taken]))
  n.withLine { n.line with polarity := .inverted }

theorem witness_CandidateDefersThenSends_renewed :
    (noticing 2 1).line.queue.find? (fun x => x.age == 0 && !x.sending) = some (queued .fillNotice [2] false 3 .neighbourUnit) ∧
      (queued .fillNotice [2] false 3 .neighbourUnit).telegram ≠ station.telegram .fillNotice 0 [1] ∧
      (queued .fillNotice [1] false 3 .neighbourUnit).telegram = station.telegram .fillNotice 0 [1] ∧
      (noticing 1 1).control.phase ≠ .safe ∧ (noticing 1 1).live = true ∧
      (∃ e ∈ (noticing 1 1).line.queue, e.telegram.kind = .fillNotice ∧ e.sending = false) := by decide

/-- R133, R136: the candidate is driven in the adopted sense. R139, R150: a newer notice takes the place, age and collision count
of one that is the candidate, which is gone; what reaches the line is what the next idle finds. -/
theorem test_deferWaitEnd_sends_what_was_taken :
    let offered := (noticing 1 1).offerOnly .neighbourUnit (station.telegram .fillNotice 0 [2])
    (after (noticing 1 1) (.deferWaitEnd 0)).lineOutput = some ⟨(station.telegram .fillNotice 0 [1]).chars, true⟩ ∧
      (noticing 1 1).lineOutput = none ∧ offered = noticing 2 1 ∧ (after offered (.deferWaitEnd 0)).lineOutput = none ∧
      (after offered (.deferWaitEnd 0)).line.queue = (noticing 2 1).line.queue ∧
      (after offered (.deferWaitEnd 0)).line.counters.queueDrops = 0 := by decide +kernel

/-- The station in a reception, of a polarity. -/
def receiving (polarity : Polarity) (n : Node) : Node :=
  n.withLine { n.line with receiver := .receiving, polarity := polarity }

theorem witness_CandidateDefersThenSends_receiving :
    let e := noticeEntry 0
    let n := receiving .normal (queueing [e] .idle)
    let d := receiving .inverted (queueing [e] (.deferring 0 1000005000 e.telegram))
    n.live = true ∧ n.control.phase = .running ∧ n.line.transmitter = .idle ∧ n.line.receiver = .receiving ∧
      n.line.polarity ≠ .undetected ∧ n.line.queue.find? (fun e => !e.sending) = some e ∧
      d.line.transmitter = .deferring 0 1000005000 e.telegram ∧
      (receiving .undetected station).line.polarity = .undetected ∧ (queueing [e] .sending).line.transmitter = .sending := by
  decide

/-- R130: an idle line in a reception ends it incomplete and counted, but not counted while the polarity is UNDETECTED. -/
theorem test_lineIdle_ends_a_reception :
    (after (receiving .normal station) (.lineIdle 0)).line.receiver = .listening ∧
      (after (receiving .normal station) (.lineIdle 0)).line.counters.checkFailures = 1 ∧
      (after (receiving .undetected station) (.lineIdle 0)).line.counters.checkFailures = 0 ∧
      (after station (.lineIdle 0)).line.counters.checkFailures = 0 := by decide

/-- R130: a character after a finished telegram begins no reception; the first one after an idle line does. -/
theorem test_receptionBegins :
    let n := station.withLine { station.line with receiver := .disregarding }
    (after n (.receptionBegins 5)).line = n.line ∧
      (after (after n (.lineIdle 0)) (.receptionBegins 0)).line.receiver = .receiving := by decide

theorem witness_EntriesLeaveWithTheirOutcome :
    let e (k : Nat) := queued .tallyNotice [] true k .tallyUnit
    let n (k : Nat) := queueing [e k] .sending
    (n 6).live = true ∧ (n 6).control.phase = .running ∧ (n 6).line.transmitter = .sending ∧
      (n 6).line.queue.find? (·.sending) = some (e 6) ∧ (n 6).line.waiting = [] ∧ (e 6).collisions < 7 ∧
      7 ≤ (e 7).collisions ∧ (e 7).telegram.kind ≠ .fillNotice ∧ ¬ ((e 7).owner = .pressUnit) := by decide

/-- The station with an entry in transmission and a harvest and a status answer waiting to enter. -/
def admitting (waiting : List Producer) : Node :=
  let n := queueing (queued .tallyNotice [] true 0 .tallyUnit ::
    (List.range 5).map (fun k => { queued .call [] false 0 .callUnit with age := k + 1 })) .sending
  ((n.withLine { n.line with waiting := waiting, nextAge := 6 }).withLog
    { n.log with harvest := some ⟨9, none, 1, false, 30, none⟩ }).withControl { n.control with answer := some ⟨8, 1, false⟩ }

theorem witness_EntriesLeaveWithTheirOutcome_admits :
    (admitting [.harvest, .status]).live = true ∧ (admitting [.harvest, .status]).line.transmitter = .sending ∧
      (admitting [.harvest, .status]).line.queue.find? (·.sending) = some (queued .tallyNotice [] true 0 .tallyUnit) ∧
      ((admitting [.harvest, .status]).line.queue.filter (fun x => x.age != 0)).length < 6 ∧
      (admitting [.harvest, .status]).log.harvest = some ⟨9, none, 1, false, 30, none⟩ ∧
      (admitting [.status]).control.answer = some ⟨8, 1, false⟩ := by decide

/-- R140: the oldest waiting class-3 offer takes the place that frees. -/
theorem test_transmissionSent_admits :
    (after (admitting [.harvest, .status]) (.transmissionSent 0 false)).line.waiting = [.status] ∧
      ((after (admitting [.harvest, .status]) (.transmissionSent 0 false)).line.queue.map (·.telegram.kind)) =
        List.replicate 5 .call ++ [.harvestAnswer] := by decide +kernel

theorem witness_EntriesLeaveWithTheirOutcome_full :
    let d := { noticeEntry 0 with age := 5 }
    let n := queueing (List.replicate 5 (queued .call [] true 0 .callUnit) ++ [d]) .idle
    let m := queueing (List.replicate 6 (queued .call [] false 0 .callUnit)) .idle
    n.control.phase ≠ .safe ∧ 6 ≤ n.line.queue.length ∧ d ∈ n.line.queue ∧ d.sending = false ∧ 2 ≤ d.cls ∧
      (∀ x ∈ n.line.queue, x.sending = false → 2 ≤ x.cls → x.age ≤ d.age) ∧ (∀ x ∈ n.line.queue, x.age = d.age → x = d) ∧
      (station.telegram .pressClaim 0 [3, 50]).kind.accessClass ≤ 1 ∧
      (station.telegram .tallyNotice 0 []).kind.accessClass = 2 ∧ 6 ≤ m.line.queue.length ∧
      ∀ x ∈ m.line.queue, x.sending = false → x.cls ≤ 1 := by decide

/-- The station with six calls in its queue and a harvest with an answer to build. -/
def crowdedLine : Node :=
  let n := queueing (List.replicate 6 (queued .call [] false 0 .callUnit)) .idle
  n.withLog { n.log with harvest := some ⟨9, none, 1, false, 30, none⟩ }

theorem witness_EntriesLeaveWithTheirOutcome_class3 :
    crowdedLine.producing .harvest = true ∧ Producer.harvest ∉ crowdedLine.line.waiting ∧
      6 ≤ crowdedLine.line.queue.length := by decide

/-- R140: a class-3 offer to a full queue waits uncounted, and a class-2 offer is refused and counted. -/
theorem test_full_queue :
    (crowdedLine.offerClass3 .harvest).line.waiting = [.harvest] ∧
      (crowdedLine.offerClass3 .harvest).line.counters.queueDrops = 0 ∧
      (crowdedLine.offer .tallyUnit (station.telegram .tallyNotice 0 [])).1.line.counters.queueDrops = 1 := by decide

/-- The node with an entry of an owner in transmission, after collisions. -/
def transmitting (n : Node) (kind : Kind) (owner : Owner) (collisions : Nat) : Node :=
  n.withLine { n.line with queue := [queued kind [9] true collisions owner], nextAge := 1, transmitter := .sending }

/-- The station with a harvest answer, and the station with a part of a status answer, in transmission. -/
def telling (part : Nat) (owner : Owner) : Node :=
  ((transmitting station (if owner = .status then .statusAnswer else .harvestAnswer) owner 7).withLog
    { station.log with harvest := some ⟨9, none, 1, false, 27, some (decide (part = 2))⟩ }).withControl
      { station.control with answer := some ⟨8, part, true⟩ }

theorem witness_EntriesLeaveWithTheirOutcome_told :
    (telling 1 .depositLog).live = true ∧ (telling 1 .depositLog).line.transmitter = .sending ∧
      (telling 1 .depositLog).line.waiting = [] ∧
      (telling 1 .depositLog).line.queue.find? (·.sending) = some (queued .harvestAnswer [9] true 7 .depositLog) ∧
      (telling 1 .depositLog).log.harvest.map (·.out) = some (some false) ∧
      (telling 2 .depositLog).log.harvest.map (·.out) = some (some true) ∧
      (telling 1 .status).line.queue.find? (·.sending) = some (queued .statusAnswer [9] true 7 .status) ∧
      (telling 1 .status).control.answer = some ⟨8, 1, true⟩ := by decide

/-- R101, R141, R191: the owner is told at the eighth collision as when the telegram is sent. -/
theorem test_owners_are_told :
    let dropped (part : Nat) (owner : Owner) := after (telling part owner) (.collision 0)
    (dropped 1 .depositLog).log.harvest.map (·.out) = some none ∧ (dropped 2 .depositLog).log.harvest = none ∧
      (dropped 1 .status).control.answer = some ⟨8, 2, false⟩ ∧ (dropped 2 .status).control.answer = none ∧
      (dropped 2 .status).log.harvest = (telling 2 .status).log.harvest := by decide +kernel

theorem witness_EntriesLeaveWithTheirOutcome_notice :
    let e := queued .fillNotice [] true 0 .neighbourUnit
    let x := { queued .fillNotice [] false 0 .neighbourUnit with age := 1 }
    (queueing [e, x] .sending).line.queue.find? (·.sending) = some e ∧ e.telegram.kind = .fillNotice ∧
      ∃ y ∈ (queueing [e, x] .sending).line.queue, y.telegram.kind = .fillNotice ∧ y.sending = false := by decide

theorem witness_EntriesLeaveWithTheirOutcome_claim :
    let e := queued .pressClaim [3, 50] true 7 .pressUnit
    let n := (queueing [e] .sending).withPress { station.press with state := .claiming, claim := .queued }
    n.line.queue.find? (·.sending) = some e ∧ 7 ≤ e.collisions ∧ e.owner = .pressUnit ∧
      e.telegram.kind = .pressClaim ∧ n.press.state = .claiming := by decide

/-- The eighth collision drops the entry and counts it; the seventh does not. -/
theorem test_collision_limit :
    let n (k : Nat) := queueing [queued .tallyNotice [] true k .tallyUnit] .sending
    (after (n 7) (.collision 0)).line.queue = [] ∧ (after (n 7) (.collision 0)).line.counters.collisionDrops = 1 ∧
      (after (n 6) (.collision 0)).line.queue.map (·.collisions) = [7] := by decide +kernel

/-- A PRESS RELEASE of station 9 as it is heard. -/
def release : List HeardChar := heard (Telegram.mk .pressRelease 9 3 0 [3]).chars

/-- A station whose line has another polarity. -/
def polar (p : Polarity) : Node := station.withLine { station.line with
  polarity := p, silence := some 1005000000, correction := some 1060000000 }

theorem witness_ReceptionsAreCheckedAndKept :
    station.StationRuns ∧ station.line.transmitter ≠ .sending ∧ station.line.receiver ≠ .disregarding ∧
      station.line.polarity = .normal ∧ (polar .undetected).StationRuns ∧ (polar .undetected).line.polarity = .undetected ∧
      goodReception (heard [1]) = none ∧ (goodReception release).isSome = true ∧
      (polar .provisional).line.polarity = .provisional ∧ (polar .provisional).line.invertedOnly = 0 ∧
      (polar .undetected).line.silence = some 1005000000 ∧ (polar .provisional).line.correction = some 1060000000 := by
  decide +kernel

theorem witness_ReceptionsAreCheckedAndKept_senses :
    let n := (polar .undetected).withCall { Call.start with state := .pending, tag := some 5 }
    let p := polar .provisional
    let q := p.withLine { p.line with invertedOnly := 1 }
    (polar .inverted).StationRuns ∧ (polar .inverted).line.polarity = .inverted ∧ n.StationRuns ∧ n.call.state = .pending ∧
      station.call.state ≠ .pending ∧ q.line.polarity = .provisional ∧ q.line.invertedOnly ≠ 0 ∧
      (polar .inverted).line.receiver ≠ .disregarding := by decide

/-- R133, R134: in INVERTED the inverted reading counts; the telegram that fixes the polarity is kept; in PROVISIONAL a failure
in both senses is counted. -/
theorem test_receptionEnd_senses :
    (after (polar .inverted) (.receptionEnd 0 (heard [1]) release)).line.buffer.length = 1 ∧
      (after (polar .undetected) (.receptionEnd 0 (heard [1]) release)).line.buffer.length = 1 ∧
      (after (polar .provisional) (.receptionEnd 0 (heard [1]) (heard [2]))).line.counters.checkFailures = 1 ∧
      (after (polar .undetected) (.receptionEnd 0 (heard [1]) (heard [2]))).line.counters.checkFailures = 0 := by
  decide +kernel

theorem test_receptionEnd :
    (after station (.receptionEnd 0 release (heard [1]))).line.buffer =
        [⟨⟨.pressRelease, 9, 3, 0, [3]⟩, 1000000000⟩] ∧
      (after station (.receptionEnd 0 (heard [1]) release)).line.counters.checkFailures = 1 ∧
      (after (polar .undetected) (.receptionEnd 0 (heard [1]) release)).line.polarity = .inverted := by decide +kernel

theorem witness_TelegramsReadBack :
    let t : Telegram := ⟨.pressRelease, 239, 255, 250, [3]⟩
    t.kind ≠ .noAnswer ∧ t.kind.lengthAllowed t.payload.length = true ∧ 1 ≤ t.sender ∧ t.sender ≤ 239 ∧
      t.island < 256 ∧ (t.dest ≤ 239 ∨ t.dest = 250) := by decide

theorem witness_StoredRowsReadBack :
    (List.replicate 15 7#8).length = 15 ∧ (255 ≤ 255 ∧ 16777215 ≤ 16777215 ∧ 65535 ≤ 65535) ∧
      (∀ t, some 43199 = some t → t ≤ 43199) ∧ (∀ f, some 1000 = some f → f ≤ 1000) ∧
      (let a : Accounting := ⟨65535, 16777215, 65535, 65535, 16777215, 0, 16777215, 65535, true⟩
       a.day ≤ 65535 ∧ a.total ≤ 16777215 ∧ a.count ≤ 65535 ∧ a.overflowCount ≤ 65535 ∧ a.overflowCharge ≤ 16777215 ∧
         a.hatchCycles ≤ 16777215 ∧ a.pressCycles ≤ 65535) :=
  ⟨rfl, by decide, fun t h => by cases h; decide, fun f h => by cases h; decide, by decide⟩

/-! ### Neighbour views and redirection (08) -/

/-- A view of a station, heard at a moment. -/
def view (address position : Nat) (fill : Option Nat) (heardAt : Moment) : View :=
  ⟨address, 3, .residual, position, fill, false, false, false, false, heardAt⟩

/-- The station with views, a card expected and its notice timer running. -/
def viewing (views : List View) (n : Node) : Node :=
  n.withNeighbour { station.neighbour with views := views, timer := some 1003600000, expected := [⟨5, 999000000⟩] }

/-- A FILL NOTICE's payload: RESIDUAL, position 100, fill 300, no flag, no call. -/
def noticePayload : List Byte := [0, 100, 0, 44, 1, 0, 0]

theorem witness_NoticesFillTheTables_timers :
    (viewing [view 9 100 none 5] station).StationRuns ∧ (viewing [] station).neighbour.phase = .active ∧
      (viewing [] station).neighbour.timer = some 1003600000 ∧ (viewing [] station).line.queue.length < 6 ∧
      earliestView (viewing [view 9 100 none 5] station).neighbour.views = some (view 9 100 none 5) ∧
      (viewing [] station).neighbour.expected = [⟨5, 999000000⟩] := by decide

theorem witness_NoticesFillTheTables_heard :
    let n := viewing [view 9 100 none 5] (hearing station .fillNotice noticePayload)
    let m := viewing ((List.range 32).map (fun k => view (k + 10) 100 none k)) n
    n.StationRuns ∧ (n.line.buffer.find? (fun r => r.telegram.kind.taker == .neighbour)).map
        (fun r => (r.telegram.kind, r.telegram.sender)) = some (.fillNotice, 9) ∧
      Fraction.ofCode (field noticePayload 0 1) = some .residual ∧ field noticePayload 1 2 ≤ 4095 ∧
      field noticePayload 3 2 = 300 ∧ field noticePayload 6 1 ≤ 5 ∧ (∃ w ∈ n.neighbour.views, w.address = 9) ∧
      32 ≤ m.neighbour.views.length ∧ (∀ w ∈ m.neighbour.views, w.address ≠ 9) ∧
      4 < field ([5, 0, 0, 0, 0, 0, 0] : List Byte) 0 1 ∧ 4095 < field ([0, 0, 16, 0, 0, 0, 0] : List Byte) 1 2 ∧
      1000 < field ([0, 0, 0, 233, 3, 0, 0] : List Byte) 3 2 ∧ 5 < field ([0, 0, 0, 0, 0, 0, 6] : List Byte) 6 1 := by
  decide +kernel

theorem witness_NoticesFillTheTables_redirect :
    let n := viewing [] (hearing station .redirectNotice [1, 0, 0, 0, 0])
    (n.line.buffer.find? (fun r => r.telegram.kind.taker == .neighbour)).map (·.telegram.kind) = some .redirectNotice ∧
      n.neighbour.expected.length ≤ 16 := by decide

theorem witness_NoticesFillTheTables_compared :
    let told := noticed station (some 402)
    let changed := noticed station (some 352)
    told.neighbour.phase = .active ∧ told.control.phase ≠ .safe ∧
      (∃ last, told.neighbour.last = some last ∧ ¬ told.noticeContent.CallsForNotice last) ∧ told.NoticeLaw ∧
      (∀ last, changed.neighbour.last = some last → changed.noticeContent.CallsForNotice last) ∧
      changed.line.queue.length < 6 := by
  have same : ¬ (noticed station (some 402)).noticeContent.CallsForNotice (noticed station (some 402)).noticeContent := by
    rw [← NoticeContent.differs_iff]
    decide
  refine ⟨by decide, by decide, ⟨_, rfl, same⟩, ⟨fun _ => ⟨_, rfl, same⟩, nofun⟩, fun last h => ?_, by decide⟩
  obtain rfl : { (noticed station (some 352)).noticeContent with fill := some 352 } = last := Option.some.inj h
  rw [← NoticeContent.differs_iff]
  decide

/-- R150: the notice for a change tells the present content, which becomes the last notice. -/
theorem test_noticeCheck :
    (noticed station (some 402)).noticeCheck = noticed station (some 402) ∧
      ((noticed station (some 352)).noticeCheck.line.queue.map (·.telegram)) = [station.presentNotice] ∧
      (noticed station (some 352)).noticeCheck.neighbour.last = some station.noticeContent := by decide +kernel

theorem test_fillNotice_enters_the_view :
    (after (viewing [] (hearing station .fillNotice noticePayload)) (.fillNotice 0)).neighbour.views =
      [view 9 100 (some 300) 999999000] := by decide +kernel

theorem witness_RedirectTargetIsTheNearestFresh :
    (viewing [view 9 100 (some 899) 5, view 8 140 (some 300) 5] station).redirectTarget = some (view 8 140 (some 300) 5) ∧
      station.control.phase ≠ .safe ∧ station.line.queue.length < 6 := by decide

/-- 08: a fill of 900 is no candidate, and neither is a view heard 3 h ago. -/
theorem test_redirectTarget_boundaries :
    (viewing [view 9 100 (some 900) 5] station).redirectTarget = none ∧
      ((viewing [view 9 100 (some 899) 0] station).withNow 10800000000).redirectTarget = none ∧
      ((viewing [view 9 100 (some 899) 0] station).withNow 10799999999).redirectTarget.isSome = true := by decide

/-! ### Collection calls (09) -/

/-- A call under tag 5 in a state. -/
def calling (state : CallState) (sends : Nat) : Call := { Call.start with
  state := state, tag := some 5, lastTag := 5, sends := some sends, resend := some 1000600000, rest := some 1000700000 }

theorem witness_CallTimersRunOut :
    (station.withCall (calling .awaiting 6)).StationRuns ∧ (station.withCall (calling .awaiting 6)).call.tag = some 5 ∧
      (calling .awaiting 6).state = .awaiting ∧ (calling .awaiting 6).resend = some 1000600000 ∧
      (calling .awaiting 6).sends = some 6 ∧ (calling .lapsed 6).state = .lapsed ∧
      (calling .lapsed 6).rest = some 1000700000 ∧ (calling .holdOff 6).state = .holdOff ∧
      (station.withCall (calling .lapsed 6)).line.queue.length ≤ 4 := by decide

theorem test_resend_up_to_six :
    (after (station.withCall (calling .awaiting 5)) (.resendTimerExpiry 0)).call.sends = some 6 ∧
      (after (station.withCall (calling .awaiting 6)) (.resendTimerExpiry 0)).call.state = .lapsed := by decide +kernel

/-- The station with a call that hears a telegram of the depot or of station 9. -/
def answered (call : Call) (kind : Kind) (payload : List Byte) : Node := (hearing station kind payload).withCall call

/-- A CALL ANSWER for station 7 (12.2): address, tag, outcome, day, hour. -/
def answerOf (tag outcome : Byte) (day : Nat) (hour : Byte) : List Byte := [7, tag, outcome] ++ bytesOf 2 day ++ [hour]

theorem witness_HeardCallsAndAnswers_answer :
    let n := answered (calling .awaiting 1) .callAnswer (answerOf 5 0 19 23)
    n.StationRuns ∧ (n.line.buffer.find? (fun r => r.telegram.kind.taker == .call)).map (·.telegram.kind) =
        some .callAnswer ∧
      n.ownAddress = 7 ∧ field (answerOf 5 0 19 23) 0 1 = 7 ∧ field (answerOf 5 0 19 23) 1 1 = 5 ∧
      field (answerOf 5 0 19 23) 2 1 = 0 ∧ field (answerOf 5 0 19 23) 5 1 < 24 ∧ n.call.tag = some 5 ∧
      n.call.state = .awaiting ∧ n.clock.day ≤ field (answerOf 5 0 19 23) 3 2 + 1 ∧
      field (answerOf 5 0 18 23) 3 2 + 1 < n.clock.day ∧ field (answerOf 6 1 0 0) 1 1 ≠ 5 := by decide

theorem test_callAnswer :
    (after (answered (calling .awaiting 1) .callAnswer (answerOf 5 0 21 6)) (.callAnswer 0)).call.round = some (21, 6) ∧
      (after (answered (calling .awaiting 1) .callAnswer (answerOf 5 1 0 0)) (.callAnswer 0)).call.state = .holdOff ∧
      (after (answered (calling .awaiting 1) .callAnswer (answerOf 6 1 0 0)) (.callAnswer 0)).call.stale = 1 := by
  decide +kernel

/-- The station at the join threshold that hears a CALL of a position, or a CALL JOIN naming station 4. -/
def invited (kind : Kind) (position : Nat) : Node :=
  (hearing station kind ((if kind = .call then [11, 0] else [11, 4, 13, 0]) ++ bytesOf 2 position ++ bytesOf 2 900 ++
    (if kind = .call then [1] else []))).withSounding { station.sounding with fill := some 700 }

theorem witness_HeardCallsAndAnswers_calls :
    (invited .call 170).StationRuns ∧ (invited .call 170).call.state = .none ∧
      (invited .call 170).hatch.station = .ready ∧ (invited .call 170).control.settings.joinThreshold ≤ 700 ∧
      (170 - 120) + (120 - 170) ≤ (invited .call 170).control.settings.joinRadius ∧
      ((invited .call 170).line.buffer.find? (fun r => r.telegram.kind.taker == .call)).map (·.telegram.kind) =
        some .call ∧
      ((invited .callJoin 170).line.buffer.find? (fun r => r.telegram.kind.taker == .call)).map
        (fun r => (r.telegram.kind, field r.telegram.payload 1 1)) = some (.callJoin, 4) ∧ (invited .callJoin 170).ownAddress ≠ 4 := by
  decide

/-- Positions 50 apart are within a join radius of 50, and 51 apart are not. -/
theorem test_join_radius :
    (after (invited .call 170) (.call 0)).call.lead = some ⟨9, 11⟩ ∧
      (after (invited .callJoin 170) (.callJoin 0)).call.lead = some ⟨4, 13⟩ ∧
      (after (invited .call 171) (.call 0)).call.state = .none := by decide +kernel

theorem witness_CallTagsAreTakenInOrder :
    exec (.call 0) ⟨invited .call 170, []⟩ = .next ⟨after (invited .call 170) (.call 0), []⟩ ∧
      (∀ dt, Instr.call 0 ≠ .logScanEnd dt) ∧ (∀ dt, Instr.call 0 ≠ .powerOn dt) ∧ (∀ dt, Instr.call 0 ≠ .resetPin dt) ∧
      (∀ dt, Instr.call 0 ≠ .resetPinHeld dt) ∧ (∀ dt, Instr.call 0 ≠ .supplyFails dt) ∧
      (∀ dt, Instr.call 0 ≠ .restart dt) ∧ (invited .call 170).call.state = .none ∧
      (after (invited .call 170) (.call 0)).call.state ≠ .none :=
  ⟨rfl, nofun, nofun, nofun, nofun, nofun, nofun, rfl, by decide +kernel⟩

/-- R166: a SCHEDULED call whose round has been missed, as an answer names a round already past. -/
theorem witness_CallTagsAreTakenInOrder_renews :
    let n := answered { calling .scheduled 1 with round := some (20, 6) } .callAnswer (answerOf 5 0 18 6)
    n.call.state = .scheduled ∧ (after n (.callAnswer 0)).call.state = .awaiting ∧
      (after n (.callAnswer 0)).call.tag = some 6 := by decide +kernel

/-- R160, R163: a LAPSED call that comes back to PENDING keeps its tag. -/
theorem test_lapseRestExpiry_keeps_the_tag :
    (after (answered { calling .lapsed 6 with rest := some 5 } .callAnswer []) (.lapseRestExpiry 0)).call.tag =
      (calling .lapsed 6).tag := by decide +kernel

theorem witness_CallTagsAreTakenInOrder_law :
    station.CallLaw ∧ relay.CallLaw ∧ (answered (calling .scheduled 1) .callAnswer []).CallLaw :=
  ⟨⟨by decide, by decide⟩, ⟨by decide, by decide⟩, ⟨by decide, by decide⟩⟩

/-! ### The relay (10) -/

/-- The relay with another relay unit. -/
def relays (r : Relay) : Node := relay.withRelay r

/-- A STATUS REQUEST of the depot to station 9 under tag 5. -/
def depotRequest : Telegram := ⟨.statusRequest, 1, 1, 9, [5]⟩

theorem witness_DepotPortFramesTelegrams :
    relay.RelayRuns ∧ relay.relay.receiver = .hunting ∧ 7 ≤ depotRequest.chars.length ∧
      depotRequest.chars.length ≤ 55 ∧ (6#8).toNat < 7 ∧ 55 < (56#8).toNat ∧ (91#8 : Byte) ≠ 90 ∧
      (∀ c ∈ [HeardChar.mk 164 true, ⟨165, false⟩], c.value ≠ 165 ∨ c.stop = false) := by decide

theorem witness_DepotPortFramesTelegrams_frame :
    let n := relays { relay.relay with receiver := .inFrame [7] 999980000, transmitting := true, lineToDepot := [depotRequest] }
    n.RelayRuns ∧ n.relay.receiver = .inFrame [7] 999980000 ∧ (n.advance 0).now - 999980000 ≤ 20000 ∧
      n.relay.transmitting = true ∧ n.relay.lineToDepot = [depotRequest] := by decide

theorem test_depotFrame_queues :
    (after relay (.depotFrame 0 (heard (depotFrameOf depotRequest)))).relay.depotToLine = [depotRequest] ∧
      (after relay (.depotFrame 0 (heard [165, 6]))).relay.checkFailures = 1 := by decide +kernel

/-- The relay with the depot's request in its queue and outstanding entries. -/
def requesting (outstanding : List Outstanding) : Node :=
  relays { relay.relay with depotToLine := [depotRequest], outstanding := outstanding }

theorem witness_RelayForwardsAndWatchesRequests_offer :
    (requesting []).RelayRuns ∧ (requesting []).relay.depotToLine = [depotRequest] ∧
      (requesting []).line.polarity ≠ .undetected ∧ (requesting []).line.queue.length < 6 ∧
      depotRequest.kind = .statusRequest ∧ relay.relay.depotToLine = [] := by decide

/-- A STATUS ANSWER of station 9 to the relay, as it is heard, and its tag 5 outstanding. -/
def statusAnswerHeard : Telegram := ⟨.statusAnswer, 9, 3, 250, 5 :: List.replicate 30 0⟩

theorem witness_RelayForwardsAndWatchesRequests_heard :
    let n := relays { relay.relay with outstanding := [⟨9, 5, .statusRequest, some 1005000000⟩] }
    n.RelayRuns ∧ n.line.polarity = .normal ∧ n.call = relay.call ∧ n.line.transmitter ≠ .sending ∧ n.line.receiver ≠ .disregarding ∧
      goodReception (heard statusAnswerHeard.chars) = some statusAnswerHeard.chars ∧
      readTelegram statusAnswerHeard.chars = some statusAnswerHeard ∧
      n.control.settings.address ≠ some statusAnswerHeard.sender ∧ statusAnswerHeard.dest = 250 ∧ n.ownAddress ≠ 250 ∧
      n.relay.lineToDepot.length < 16 ∧
      n.relay.outstanding.any (fun o => o.dest == 9 && o.tag == 5 && o.kind == .statusRequest) = true ∧
      firstTiming n.relay.outstanding = some (⟨9, 5, .statusRequest, some 1005000000⟩, 1005000000) := by decide +kernel

/-- The relay whose line has another polarity. -/
def relayPolar (p : Polarity) : Node := relay.withLine { relay.line with
  polarity := p, silence := some 1005000000, correction := some 1060000000 }

theorem witness_RelayForwardsAndWatchesRequests_senses (p : Polarity) :
    (relayPolar p).RelayRuns ∧ (relayPolar p).CallLaw ∧ (relayPolar p).line.polarity = p ∧
      (relayPolar p).line.transmitter ≠ .sending ∧ (relayPolar p).line.receiver ≠ .disregarding ∧
      (relayPolar p).line.invertedOnly = 0 ∧ (relayPolar p).line.silence = some 1005000000 ∧
      (relayPolar p).line.correction = some 1060000000 :=
  ⟨witness_live_states.2.1, ⟨⟨fun _ => rfl, fun _ => rfl⟩, fun _ => rfl⟩, rfl, nofun, nofun, rfl, rfl, rfl⟩

theorem witness_RelayForwardsAndWatchesRequests_judged :
    let clash := Telegram.mk .statusAnswer 230 3 250 (5 :: List.replicate 30 0)
    goodReception (heard [1]) = none ∧ readTelegram clash.chars = some clash ∧
      relay.control.settings.address = some clash.sender ∧
      (readTelegram (Telegram.mk .statusAnswer 9 3 250 [5]).chars) = none ∧
      ((relayPolar .provisional).withLine
        { (relayPolar .provisional).line with invertedOnly := 1 }).line.invertedOnly ≠ 0 := by decide +kernel

/-- R133, R134: the relay finds the polarity as a station does, and keeps the telegram that fixes it; in PROVISIONAL the first
inverted-only reception is dropped. -/
theorem test_relay_senses :
    let hears (p : Polarity) := after (relayPolar p) (.receptionEnd 0 (heard [1]) (heard statusAnswerHeard.chars))
    (hears .undetected).line.polarity = .inverted ∧ (hears .undetected).relay.lineToDepot = [statusAnswerHeard] ∧
      (hears .inverted).relay.lineToDepot = [statusAnswerHeard] ∧ (hears .provisional).relay.lineToDepot = [] ∧
      (hears .provisional).line.invertedOnly = 1 ∧ (hears .normal).line.counters.checkFailures = 1 := by decide +kernel

/-- A telegram for the relay's own address, from another relay. -/
def toTheRelay (kind : Kind) (payload : List Byte) : Telegram := ⟨kind, 231, 1, 230, payload⟩

theorem witness_RelayForwardsAndWatchesRequests_own :
    let t := toTheRelay .time (bytesOf 2 20 ++ bytesOf 3 86399)
    goodReception (heard t.chars) = some t.chars ∧ readTelegram t.chars = some t ∧ t.dest = relay.ownAddress ∧
      relay.control.settings.address ≠ some t.sender ∧ field t.payload 2 3 < 86400 ∧
      (toTheRelay .harvestConfirm [1, 0, 0]).dest = relay.ownAddress ∧ relay.line.buffer.length < 4 := by decide +kernel

/-- R178: a TIME for the relay sets its clock, a STATUS REQUEST waits in its buffer, and any other telegram goes to the depot. -/
theorem test_relay_own_address :
    let hears (t : Telegram) := after relay (.receptionEnd 0 (heard t.chars) (heard [1]))
    (hears (toTheRelay .time (bytesOf 2 20 ++ bytesOf 3 86399))).relay.clock = some ⟨20, 86399⟩ ∧
      (hears (toTheRelay .statusRequest [5])).line.buffer.length = 1 ∧
      (hears (toTheRelay .harvestConfirm [1, 0, 0])).relay.lineToDepot = [toTheRelay .harvestConfirm [1, 0, 0]] := by
  decide +kernel

/-- The relay with a STATUS REQUEST in transmission and its outstanding entry. -/
def forwards (collisions : Nat) : Node :=
  (transmitting relay .statusRequest (.relayRequest 9 5) collisions).withRelay
    { relay.relay with outstanding := [⟨8, 5, .harvestRequest, none⟩, ⟨9, 5, .statusRequest, none⟩] }

theorem witness_RelayForwardsAndWatchesRequests_outcome :
    (forwards 7).RelayRuns ∧ (forwards 7).line.transmitter = .sending ∧
      (forwards 7).line.queue.find? (·.sending) = some (queued .statusRequest [9] true 7 (.relayRequest 9 5)) ∧
      (queued .statusRequest [9] true 7 (.relayRequest 9 5)).telegram.kind ≠ .fillNotice ∧
      (forwards 7).relay.outstanding.find? (fun o => o.dest == 9 && o.tag == 5) = some ⟨9, 5, .statusRequest, none⟩ ∧
      (forwards 7).relay.lineToDepot.length < 16 := by decide

/-- R180: a request sent begins its 5 s; one dropped at the eighth collision is answered NO ANSWER. -/
theorem test_request_outcomes :
    (after (forwards 0) (.transmissionSent 0 false)).relay.outstanding =
        [⟨8, 5, .harvestRequest, none⟩, ⟨9, 5, .statusRequest, some 1005000000⟩] ∧
      (after (forwards 7) (.collision 0)).relay.outstanding = [⟨8, 5, .harvestRequest, none⟩] ∧
      (after (forwards 7) (.collision 0)).relay.lineToDepot = [⟨.noAnswer, 230, 1, 250, [9, 5, 11]⟩] := by decide +kernel

theorem witness_RelayForwardsAndWatchesRequests_clock :
    let n := relays { relay.relay with clock := some ⟨20, 5⟩, origination := some 1600000000 }
    n.RelayRuns ∧ n.relay.clock = some ⟨20, 5⟩ ∧ n.relay.origination = some 1600000000 ∧ n.line.queue.length < 6 := by
  decide

/-- An offered request becomes the newest of eight outstanding ones, and the oldest is answered NO ANSWER. -/
theorem test_depotToLineOffer_eight :
    let n := after (requesting ((List.range 8).map (fun k => ⟨k + 20, 0, .statusRequest, none⟩))) (.depotToLineOffer 0)
    n.relay.outstanding.map (·.dest) = [21, 22, 23, 24, 25, 26, 27, 9] ∧
      n.relay.lineToDepot = [⟨.noAnswer, 230, 1, 250, [20, 0, 11]⟩] := by decide +kernel

/-! ### Configuration, start and status (11) -/

theorem witness_StartsGiveStartValues :
    station.power.supply = true ∧ station.power.pinHeld = false ∧
      ((hearing station .restart []).line.buffer.find? (fun r => r.telegram.kind.taker == .control)).map
        (·.telegram.kind) = some .restart ∧
      (hearing station .restart []).live = true ∧ programming.store.programEnds = some 1000004000 ∧
      programming.store.staging.isEmpty = false ∧ station.store.programEnds = none ∧
      rowPlace .log 0 ≠ rowPlace .card 2 := by decide

/-- R186's example in a block: E0 2,400, F0 2,300, full 820, call 800, join 790; 1,200 µs, 5 pings, position 120. -/
def exampleBlock : List Byte :=
  let b : List Byte := [0, 7, 3] ++ bytesOf 2 120 ++ [0, 1, 1, 6, 22] ++ bytesOf 2 600 ++ [5] ++ bytesOf 2 1200 ++
    bytesOf 2 2400 ++ bytesOf 2 2300 ++ bytesOf 2 820 ++ bytesOf 2 800 ++ bytesOf 2 790 ++ [50, 12, 40, 4]
  b ++ checkBytes (crc16 b)

theorem test_configuration_example :
    let c := (after Node.reset (.configurationRead 0 exampleBlock)).control
    c.phase = .running ∧ c.clamped = true ∧ c.settings.f0 = 2200 ∧ c.settings.callThreshold = 770 ∧
      c.settings.joinThreshold = 770 := by decide +kernel

theorem witness_ConfigurationIsCheckedAndClamped :
    Node.reset.power.supply = true ∧ Node.reset.power.pinHeld = false ∧ Node.reset.control.phase = .reading ∧
      station.control.phase ≠ .reading ∧ (exampleBlock.take 31).length = 31 ∧ checkAgrees (exampleBlock.take 31) = true ∧
      field exampleBlock 0 1 = 0 ∧ field exampleBlock 5 1 ≤ 4 ∧ field exampleBlock 6 1 ≤ 1 ∧
      ((exampleBlock.take 30).take 31).length < 31 := by decide +kernel

theorem witness_ConfigurationIsCheckedAndClamped_law : Node.reset.CardLaw where
  slots := List.Pairwise.nil
  slotRange := nofun
  once := nofun
  entries := rfl
  checkValue := rfl
  positions := List.Pairwise.nil
  range := nofun
  revokedOnce := nofun
  revocations := rfl
  reading := fun _ => rfl

/-- A node with a status answer pending. -/
def answering (n : Node) (a : Option PendingAnswer) : Node := n.withControl { n.control with answer := a }

theorem witness_StatusRequestsAreAnswered_request :
    let n := answering (hearing station .statusRequest [9]) (some ⟨8, 1, true⟩)
    n.live = true ∧ n.control.phase = .running ∧ n.control.settings.role = .station ∧
      (n.line.buffer.find? (fun r => r.telegram.kind.taker == .control)).map (·.telegram.kind) = some .statusRequest ∧
      n.control.answer = some ⟨8, 1, true⟩ := by decide

theorem witness_StatusRequestsAreAnswered_relay :
    let n := (hearing relay .statusRequest [9]).withRelay { relay.relay with clock := some ⟨20, 5⟩ }
    n.live = true ∧ n.control.phase = .running ∧ n.control.settings.role = .relay ∧ n.relay.clock = some ⟨20, 5⟩ ∧
      n.relay.lineToDepot.length < 16 ∧
      (n.line.buffer.find? (fun r => r.telegram.kind.taker == .control)).map (·.telegram.kind) = some .statusRequest := by
  decide

/-- The relay with a STATUS REQUEST heard, its clock UNSET, and telegrams for the depot. -/
def askedRelay (waiting : Nat) : Node :=
  (hearing relay .statusRequest [9]).withRelay { relay.relay with lineToDepot := List.replicate waiting depotRequest }

theorem witness_StatusRequestsAreAnswered_unset :
    (askedRelay 15).live = true ∧ (askedRelay 16).control.phase = .running ∧
      (askedRelay 16).control.settings.role = .relay ∧ (askedRelay 16).relay.clock = none ∧
      ¬ (askedRelay 16).relay.lineToDepot.length < 16 ∧ (askedRelay 15).relay.lineToDepot.length < 16 := by decide

/-- R178, 12.2: the answer enters the last place of the line-to-depot queue, and is dropped and counted with none; with the clock
UNSET it takes a free value in either case. -/
theorem test_statusRequest_relay_unset :
    let asked (waiting : Nat) := after (askedRelay waiting) (.statusRequest 0)
    (asked 15).relay.lineToDepot.length = 16 ∧ (asked 15).fresh = 1 ∧ (asked 15).relay.drops = 0 ∧
      (asked 16).relay.lineToDepot.length = 16 ∧ (asked 16).fresh = 1 ∧ (asked 16).relay.drops = 1 := by decide +kernel

theorem witness_StatusRequestsAreAnswered_answer :
    let n := answering station (some ⟨9, 2, false⟩)
    let full := n.withLine { n.line with queue := List.replicate 6 (queued .call [] false 0 .callUnit) }
    n.live = true ∧ n.control.phase = .running ∧ n.control.settings.role = .station ∧
      n.control.answer = some ⟨9, 2, false⟩ ∧ n.cards.phase ≠ .scanning ∧ n.log.phase = .opened ∧ n.line.waiting = [] ∧
      n.line.queue.length < 6 ∧ 6 ≤ full.line.queue.length ∧
      (n.withCards Cards.start).cards.phase = .scanning := by decide

theorem test_statusAnswer_lengths :
    ((after (answering station (some ⟨9, 1, false⟩)) (.statusAnswer 0)).line.queue.map (·.telegram.payload.length)) = [31] ∧
      ((after (answering station (some ⟨9, 2, false⟩)) (.statusAnswer 0)).line.queue.map (·.telegram.payload.length)) = [40] := by
  decide +kernel

/-- 12, 12.2: the table check value 0x1234 goes high byte first, behind tag, part byte and the two card entries bytes. -/
theorem test_statusAnswer_check_value :
    let n := answering (station.withCards { cards with checkValue := 0x1234 }) (some ⟨9, 2, false⟩)
    ((after n (.statusAnswer 0)).line.queue.map (fun e => (e.telegram.payload.drop 4).take 2)) = [[0x12, 0x34]] := by
  decide +kernel

/-! ### The laws every step keeps -/

/-- A step of which the laws' statements speak. -/
theorem witness_laws_step : step ⟨station, [.cardRead 0 1]⟩ = .next ⟨after station (.cardRead 0 1), []⟩ := rfl

theorem witness_TablesKeepTheirForm : station.WithinCapacities ∧ station.TallyLaw ∧ station.StoreForm ∧
    station.tally.touches + station.log.held.length < 4294967295 :=
  ⟨⟨by decide, by decide, by decide, by decide, by decide, by decide, by decide, by decide, by decide, by decide⟩,
    ⟨by decide, by decide, by decide, by decide, by decide⟩, rfl, by decide⟩

theorem witness_FullLawAndLogLawAreKept :
    station.FullLaw ∧ station.LogLaw ∧ (sounds { station.sounding with full := true, fill := some 951 }).FullLaw :=
  ⟨⟨nofun, nofun⟩, ⟨by decide, nofun, nofun⟩, ⟨fun _ => ⟨951, rfl, by decide⟩, nofun⟩⟩

theorem witness_LockLawIsKept : (hatches window).ReleaseLaw ∧ (hatches window).lockOutput ≠ .off :=
  ⟨witness_ReleaseLaw.1, by decide⟩

theorem witness_DriveLawIsKept : station.DriveLaw ∧ (presses (forwarding 100)).forwardOutput ≠ .off ∧
    (presses (reversing .normal)).reverseOutput ≠ .off :=
  ⟨⟨by decide, nofun, nofun, by decide, by decide, by decide, nofun, nofun, by decide⟩, by decide, by decide⟩

/-- The second drive law's state in a driven forward stroke, in a return, and with no press fitted. -/
theorem witness_DriveLawIsKept_quiet : (presses (forwarding 100)).QuietLaw ∧ (presses (reversing .normal)).QuietLaw ∧
    (presses (forwarding 100)).ReleaseLaw ∧ (presses (reversing .normal)).press.kind = .normal :=
  ⟨⟨by decide, by decide, by decide, by decide⟩, ⟨by decide, by decide, by decide, by decide⟩,
    ⟨by decide, by decide, by decide, by decide⟩, by decide⟩

/-- A station without a press: STOPPED, nothing driven, at home in what it reads. -/
def pressless : Node :=
  let n := presses { station.press with state := .stopped }
  n.withControl { n.control with settings := { settings with pressFitted := false } }

theorem witness_DriveLawIsKept_unfitted : pressless.QuietLaw ∧ pressless.DriveLaw ∧ pressless.pressHome = true :=
  ⟨⟨by decide, by decide, by decide, by decide⟩,
    ⟨by decide, nofun, nofun, by decide, by decide, by decide, nofun, nofun, by decide⟩, by decide⟩

theorem witness_NoticesFillTheTables_law :
    Node.reset.NoticeLaw ∧ Node.reset.QuietLaw ∧ step ⟨station, [.cardRead 0 1]⟩ = .next ⟨after station (.cardRead 0 1), []⟩ :=
  ⟨⟨nofun, fun _ => rfl⟩, ⟨by decide, by decide, by decide, by decide⟩, rfl⟩

theorem witness_CardLawIsKept : station.CardLaw := witness_CardLaw none

end Sys2Proof.Tests
end

section
/-! The sounding unit's own commands and its arithmetic (01): O3 to O6. -/

open Sys2Proof Sys2Proof.Machine

/-! ### The request comes due (R3, R19 to R21) -/

namespace Sys2Proof.Machine

/-- A command of the station's units is their act on the node after `dt`. -/
theorem State.perform_station {s : State} (h : s.node.StationActs) (dt : Nat) (f : Node → Node) :
    s.perform dt (fun n => n.whenStation f) = .next ⟨f (s.node.advance dt), s.pending⟩ := by
  rw [State.perform_eq, Node.whenStation_of_acts (h.advance dt)]

/-- A deferral condition of R21 holds while the hatch reads open, the lift lifted or the press away from home. -/
theorem Node.soundingDeferred_iff (n : Node) :
    n.soundingDeferred = true ↔ n.hatch.hatch ≠ .closed ∨ n.hatch.lift ≠ .seated ∨ n.pressHome = false := by
  simp [Node.soundingDeferred, Node.hatchClosed, Node.liftSeated, or_assoc]

/-- Whether the press reads at home does not hang on the time. -/
@[simp] theorem Node.pressHome_reach (n : Node) (due : Moment) : (n.reach due).pressHome = n.pressHome := rfl

/-- A request that waits and is due is HELD or becomes a sounding in flight (R3, R21). -/
theorem Node.trySounding_due {n : Node} {r : SoundingRequest} (hw : n.sounding.phase = .waiting)
    (hr : n.sounding.request = some r) (hd : r.due ≤ n.now) (reading : Option Int) :
    n.trySounding reading = n.withSounding
      (if n.soundingDeferred then { n.sounding with phase := .held } else n.sounding.begin r reading) := by
  unfold Node.trySounding
  cases n.soundingDeferred <;> simp [hw, hr, hd]

/-- A request that is not due yet goes on waiting. -/
theorem Node.trySounding_early {n : Node} (h : ∀ r, n.sounding.request = some r → n.now < r.due) (reading : Option Int) :
    n.trySounding reading = n := by
  unfold Node.trySounding
  split
  · rfl
  · rename_i r hr
    exact if_neg fun hc => Nat.not_le.mpr (h r hr) hc.2

/-- At its due time a waiting request becomes a sounding in flight, or is HELD (R3, R21). -/
theorem Node.soundingDue_of {n : Node} {r : SoundingRequest} (hw : n.sounding.phase = .waiting)
    (hr : n.sounding.request = some r) (reading : Option Int) :
    n.soundingDue reading = (n.reach r.due).withSounding
      (if n.hatch.hatch ≠ .closed ∨ n.hatch.lift ≠ .seated ∨ n.pressHome = false then
        { n.sounding with phase := .held } else n.sounding.begin r reading) := by
  have htry := Node.trySounding_due (n := n.reach r.due) hw hr (Nat.le_max_right _ _) reading
  have hdeferred := (n.reach r.due).soundingDeferred_iff
  simp only [hdeferred] at htry
  simpa [Node.soundingDue, hw, hr] using htry

/-- Arming in every phase but STOPPED (R19). -/
theorem Sounding.arm_of {u : Sounding} (h : u.phase ≠ .stopped) (now due : Moment) (start repeats : Bool) :
    u.arm now due start repeats = { u with
      request := some (mergeRequest u.request due start repeats)
      phase := armedPhase u.phase (mergeRequest u.request due start repeats).due now } := if_neg h

/-- The periodic timer's end arms a request due at that moment (R20). -/
theorem Node.periodicExpiry_of {n : Node} {t : Moment} (h : n.sounding.periodic = some t)
    (hp : n.sounding.phase ≠ .stopped) :
    let r := mergeRequest n.sounding.request (max n.now t) false false
    n.periodicExpiry = (n.reach t).withSounding { n.sounding with
      periodic := none, request := some r, phase := armedPhase n.sounding.phase r.due (max n.now t) } := by
  simp only [Node.periodicExpiry, h]
  exact congrArg (n.reach t).withSounding
    (Sounding.arm_of (u := { n.sounding with periodic := none }) hp (max n.now t) (max n.now t) false false)

end Sys2Proof.Machine

/-- Settles O3: at its due time the request is tried, and the periodic timer's end arms one; each is one equation of the
sounding unit. -/
theorem soundingRequestComesDue : Obligations.SoundingRequestComesDue := by
  refine ⟨?due, ?periodic⟩
  case due =>
    intro s dt reading r hruns hw hr
    have hexec : exec (.soundingDue dt reading) s = .next ⟨(s.node.advance dt).soundingDue reading, s.pending⟩ :=
      State.perform_station hruns.acts dt _
    rw [hexec, Node.soundingDue_of (n := s.node.advance dt) hw hr]
    rfl
  case periodic =>
    intro s dt t hruns ht hp
    have hexec : exec (.periodicTimerExpiry dt) s = .next ⟨(s.node.advance dt).periodicExpiry, s.pending⟩ :=
      State.perform_station hruns.acts dt _
    rw [hexec, Node.periodicExpiry_of (n := s.node.advance dt) ht hp]
    cases hr : s.node.sounding.request <;> cases hph : s.node.sounding.phase <;>
      simp [hr, hph, mergeRequest, armedPhase] <;> rfl

/-! ### The temperature, the speed of sound, the distance and the fill (R4, R9 to R11) -/

namespace Sys2Proof.Machine

/-- A reading within −40 to +85 °C is clamped to −30 to +60 °C, and any other gives 15 °C (R4). -/
theorem soundingTemperature_some (t : Int) :
    soundingTemperature (some t) = if t < -40 ∨ 85 < t then 15 else max (-30) (min 60 t) := by
  simp only [soundingTemperature]
  split_ifs <;> omega

/-- The rounded quotient by 100 is the nearest one, and half goes away from zero (R9). -/
theorem roundHundredth_nearest (x : Int) :
    2 * |x - 100 * roundHundredth x| ≤ 100 ∧
      (2 * |x - 100 * roundHundredth x| = 100 → |x| < |100 * roundHundredth x|) := by
  unfold roundHundredth
  split_ifs with hx
  · have hq : 0 ≤ 100 * ((x + 50) / 100) := by omega
    rw [abs_of_nonneg hx, abs_of_nonneg hq]
    rcases abs_cases (x - 100 * ((x + 50) / 100)) with ⟨h, -⟩ | ⟨h, -⟩ <;> rw [h] <;> omega
  · have hq : 100 * -((-x + 50) / 100) ≤ 0 := by omega
    rw [abs_of_neg (not_le.mp hx), abs_of_nonpos hq]
    rcases abs_cases (x - 100 * -((-x + 50) / 100)) with ⟨h, -⟩ | ⟨h, -⟩ <;> rw [h] <;> omega

/-- From −30 to +60 °C the quotient of R9 lies between −182 and 364. -/
theorem roundHundredth_range {t : Int} (hlo : -30 ≤ t) (hhi : t ≤ 60) :
    -182 ≤ roundHundredth (606 * t) ∧ roundHundredth (606 * t) ≤ 364 := by
  unfold roundHundredth
  split_ifs <;> omega

/-- The speed of sound from −30 to +60 °C is 3,313 plus the rounded quotient (R9). -/
theorem speedOfSound_eq {t : Int} (hlo : -30 ≤ t) (hhi : t ≤ 60) :
    (speedOfSound t : Int) = 3313 + roundHundredth (606 * t) := by
  have := roundHundredth_range hlo hhi
  unfold speedOfSound
  omega

/-- An echo time of a ping and a speed of sound multiply within 32 bits, and the distance is at most 4,412 mm (R10). -/
theorem distanceOf_bound {t v : Nat} (ht : t ≤ 24000) (hv : v ≤ 3677) :
    t * v + 10000 < 2 ^ 32 ∧ distanceOf t v ≤ 4412 := by
  have hprod : t * v ≤ 24000 * 3677 := Nat.mul_le_mul ht hv
  unfold distanceOf
  omega

/-- A distance at or beyond E0 measures 0 (R11). -/
theorem measuredFill_empty {e0 f0 d : Nat} (h : e0 ≤ d) : measuredFill e0 f0 d = 0 := if_pos h

/-- A distance at or within F0 measures 1,000 (R11). -/
theorem measuredFill_whole {e0 f0 d : Nat} (hd : d ≤ f0) (hf : f0 < e0) : measuredFill e0 f0 d = 1000 := by
  unfold measuredFill
  rw [if_neg (by omega), if_pos hd]

/-- Between F0 and E0 the quotient of R11 measures, which stays below 1,000. -/
theorem measuredFill_between {e0 f0 d : Nat} (hf : f0 < d) (hd : d < e0) :
    measuredFill e0 f0 d = (e0 - d) * 1000 / (e0 - f0) ∧ measuredFill e0 f0 d ≤ 999 := by
  have heq : measuredFill e0 f0 d = (e0 - d) * 1000 / (e0 - f0) := by
    unfold measuredFill
    rw [if_neg (by omega), if_neg (by omega)]
  have hlt : (e0 - d) * 1000 / (e0 - f0) < 1000 := (Nat.div_lt_iff_lt_mul (by omega)).mpr (by omega)
  exact ⟨heq, by omega⟩

end Sys2Proof.Machine

/-- Settles O4, from one lemma for each rule: R4's clamping, R9's rounding, R10's bounds and the three cases of R11. -/
theorem speedDistanceAndFillOfAPing : Obligations.SpeedDistanceAndFillOfAPing := by
  refine ⟨⟨rfl, fun t => ⟨fun h => ?out, fun hlo hhi => ?within⟩⟩, fun t hlo hhi => ?speed, fun _ _ => rfl,
    fun _ _ => distanceOf_bound, rfl, fun e0 f0 d hf0 he0 hgap => ⟨measuredFill_empty, fun hd => ?whole, fun hf hd => ?between⟩⟩
  case out => rw [soundingTemperature_some, if_pos h]
  case within => rw [soundingTemperature_some, if_neg (by omega)]
  case speed =>
    have heq := speedOfSound_eq hlo hhi
    have hrange := roundHundredth_range hlo hhi
    obtain ⟨hnear, hhalf⟩ := roundHundredth_nearest (606 * t)
    exact ⟨roundHundredth (606 * t), heq, hnear, hhalf, by omega, by omega⟩
  case whole => exact measuredFill_whole hd (by omega)
  case between =>
    obtain ⟨heq, hle⟩ := measuredFill_between hf hd
    exact ⟨heq, hle, by omega⟩

/-! ### A ping slot (R5, R6) -/

namespace Sys2Proof.Machine

/-- The results with that of the slot under way, as the statements write them (R6). -/
theorem Flight.allResults_eq (f : Flight) : f.allResults = f.results ++ (f.slot.map (·.echo)).toList := by
  unfold Flight.allResults
  cases f.slot <;> rfl

/-- An event in a ping slot acts on the slot under way. -/
theorem Node.atSlot_of {n : Node} {f : Flight} {sl : PingSlot} (hf : n.sounding.flight = some f) (hsl : f.slot = some sl)
    (act : Node → Flight → PingSlot → Node) : n.atSlot act = act n f sl := by
  simp [Node.atSlot, hf, hsl]

/-- The first edge within 24,000 µs of a watched slot is its echo, and every other edge nothing (R5). -/
theorem Node.echoEdge_eq (n : Node) (f : Flight) (sl : PingSlot) :
    n.echoEdge f sl = n.withSounding (if sl.watch = .watching ∧ n.now - sl.began ≤ 24000 then
      { n.sounding with flight := some { f with
          slot := some { sl with watch := .over, echo := some (n.now - sl.began) } } }
      else n.sounding) := by
  unfold Node.echoEdge longestEcho
  split_ifs <;> rfl

/-- The next slot begins `begun` × 60 ms after the first burst, which the first slot's own burst is (R6). -/
theorem Node.startSlot_of {n : Node} {f : Flight} (h : f.slotsBegun < n.control.settings.pingCount) :
    let now' := match f.firstBurst with
      | none => n.now
      | some t => max n.now (t + f.slotsBegun * 60000)
    n.startSlot f = (n.withNow now').withFlight { f with
      results := f.results ++ (f.slot.map (·.echo)).toList
      firstBurst := some (f.firstBurst.getD n.now)
      slot := some ⟨now', true, .blanking, none⟩ } := by
  unfold Node.startSlot
  rw [if_pos h, f.allResults_eq]
  cases f.firstBurst <;> rfl

end Sys2Proof.Machine

/-- Settles O5: every command of a slot acts on the slot under way, by one equation each. -/
theorem pingSlotRunsItsCourse : Obligations.PingSlotRunsItsCourse := by
  intro s dt f hruns hf
  have hexec (act : Node → Node) : s.perform dt (fun n => n.whenStation act) = _ := State.perform_station hruns.acts dt act
  refine ⟨fun hbegun => ?start, fun sl hsl => ?slot⟩
  case start =>
    have hstart : exec (.pingSlotStart dt) s = .next ⟨(s.node.advance dt).startSlot f, s.pending⟩ := by
      rw [exec, execPingSlotStart, hexec]
      simp only [Node.advance_sounding, hf]
    rw [hstart, Node.startSlot_of (n := s.node.advance dt) hbegun]
    rfl
  case slot =>
    have hslot (act : Node → Flight → PingSlot → Node) : s.perform dt (fun n => n.whenStation (fun n => n.atSlot act)) =
        .next ⟨act (s.node.advance dt) f sl, s.pending⟩ := by
      rw [hexec, Node.atSlot_of (n := s.node.advance dt) hf hsl]
    refine ⟨fun hdriving => ?burst, fun hblanking => ?blanking, ?echo, fun hwatching => ?elapsed⟩
    case burst => rw [exec, execBurstEnd, hslot, Node.burstEnd, if_pos hdriving]; rfl
    case blanking => rw [exec, execBlankingEnd, hslot, Node.blankingEnd, if_pos hblanking]; rfl
    case echo =>
      rw [exec, execEchoEdge, hslot, Node.echoEdge_eq]
      rfl
    case elapsed => rw [exec, execPingWindowEnd, hslot, Node.windowEnd, if_pos hwatching]; rfl

/-! ### The valid pings (R7, R8) -/

namespace Sys2Proof.Machine

/-- Inserting keeps the elements. -/
theorem insertAscending_perm (x : Nat) (ys : List Nat) : (insertAscending x ys).Perm (x :: ys) := by
  induction ys with
  | nil => exact .refl _
  | cons y ys ih =>
    unfold insertAscending
    split
    · exact .refl _
    · exact (ih.cons y).trans (.swap x y ys)

/-- Inserting keeps ascending order. -/
theorem insertAscending_sorted (x : Nat) {ys : List Nat} (h : ys.Pairwise (· ≤ ·)) :
    (insertAscending x ys).Pairwise (· ≤ ·) := by
  induction ys with
  | nil => exact List.pairwise_singleton _ _
  | cons y ys ih =>
    obtain ⟨hy, hys⟩ := List.pairwise_cons.mp h
    unfold insertAscending
    split
    next hxy =>
      refine List.pairwise_cons.mpr ⟨fun z hz => ?_, h⟩
      rcases List.mem_cons.mp hz with rfl | hz
      · exact hxy
      · exact hxy.trans (hy z hz)
    next hxy =>
      refine List.pairwise_cons.mpr ⟨fun z hz => ?_, ih hys⟩
      rcases List.mem_cons.mp ((insertAscending_perm x ys).mem_iff.mp hz) with rfl | hz
      · omega
      · exact hy z hz

/-- The valid pings, none lost and none gained (R8). -/
theorem validPings_perm (results : List (Option Nat)) : (validPings results).Perm (results.filterMap id) := by
  unfold validPings ascending
  induction results.filterMap id with
  | nil => exact .refl _
  | cons x xs ih => exact (insertAscending_perm x _).trans (ih.cons x)

/-- The valid pings stand in ascending order (R8). -/
theorem validPings_sorted (results : List (Option Nat)) : (validPings results).Pairwise (· ≤ ·) := by
  unfold validPings ascending
  induction results.filterMap id with
  | nil => exact .nil
  | cons x xs ih => exact insertAscending_sorted x ih

/-- The median is the element at floor((V − 1) / 2) (R8). -/
theorem getElem?_medianOf {sorted : List Nat} (h : sorted ≠ []) :
    sorted[(sorted.length - 1) / 2]? = some (medianOf sorted) := by
  have hpos := List.length_pos_iff.mpr h
  have hlt : (sorted.length - 1) / 2 < sorted.length := by omega
  simp [medianOf, hlt]

/-- The spread of ascending numbers is that of the bounds that are among them (R8). -/
theorem spreadOf_eq {sorted : List Nat} (hs : sorted.Pairwise (· ≤ ·)) {lo hi : Nat} (hlo : lo ∈ sorted) (hhi : hi ∈ sorted)
    (hall : ∀ x ∈ sorted, lo ≤ x ∧ x ≤ hi) : spreadOf sorted = hi - lo := by
  obtain ⟨first, rest, rfl⟩ := List.exists_cons_of_ne_nil (List.ne_nil_of_mem hlo)
  have hhead : first = lo := by
    rcases List.mem_cons.mp hlo with rfl | h
    · rfl
    · exact Nat.le_antisymm ((List.pairwise_cons.mp hs).1 lo h) (hall first List.mem_cons_self).1
  have hlast : (first :: rest).getLast (List.cons_ne_nil _ _) = hi := by
    refine Nat.le_antisymm (hall _ (List.getLast_mem _)).2 ?_
    exact hs.rel_getLast hhi
  unfold spreadOf
  rw [List.getLastD_eq_getLast?, List.getLast?_eq_getLast_of_ne_nil (List.cons_ne_nil _ _), hlast]
  simp [hhead]

/-- Fewer valid pings than (P + 1) / 2 give FAILED (R7). -/
theorem evaluateSounding_failed {c : Settings} {results : List (Option Nat)}
    (h : (validPings results).length < (c.pingCount + 1) / 2) (temperature : Int) :
    evaluateSounding c temperature results = .failed := if_pos h

/-- As many or more give a median, its fill, and UNSTEADY above a spread of 2,000 µs (R8). -/
theorem evaluateSounding_used {c : Settings} {results : List (Option Nat)}
    (h : ¬ (validPings results).length < (c.pingCount + 1) / 2) (temperature : Int) :
    evaluateSounding c temperature results = .used (medianOf (validPings results))
      (measuredFill c.e0 c.f0 (distanceOf (medianOf (validPings results)) (speedOfSound temperature)))
      (decide (2000 < spreadOf (validPings results))) := if_neg h

end Sys2Proof.Machine

/-- Settles O6: sorting keeps the valid pings, so the median and the spread are those of the sorted list. -/
theorem medianAndSpreadOfValidPings : Obligations.MedianAndSpreadOfValidPings := by
  intro c temperature results hpings valid sorted
  have hperm : sorted.Perm valid := validPings_perm results
  have hsorted : sorted.Pairwise (· ≤ ·) := validPings_sorted results
  have hlength : sorted.length = valid.length := hperm.length_eq
  refine ⟨hperm, hsorted, fun hfew => ?failed, fun hmany => ⟨medianOf sorted, ?median, rfl, fun lo hi hlo hhi hall => ?used⟩⟩
  case failed => exact evaluateSounding_failed (hlength ▸ hfew) temperature
  case median =>
    have hne : sorted ≠ [] := List.length_pos_iff.mp (by omega)
    rw [← hlength, getElem?_medianOf hne]
  case used =>
    have hspread : spreadOf sorted = hi - lo :=
      spreadOf_eq hsorted (hperm.mem_iff.mpr hlo) (hperm.mem_iff.mpr hhi) fun x hx => hall x (hperm.mem_iff.mp hx)
    refine ⟨hspread, ?_⟩
    rw [← hspread]
    exact evaluateSounding_used (Nat.not_lt.mpr (hlength ▸ hmany)) temperature

end

section
/-! The laws at reset (O55), and the FULL law at a threshold that no configuration gives (O57). -/

open Sys2Proof Sys2Proof.Machine

namespace Sys2Proof.Machine

/-- A station running with a full threshold of 0, its sounding in flight with one ping of no echo still to be evaluated. -/
def thresholdZero : Node :=
  { Node.reset with
    control := { Control.start .power with phase := .running }
    sounding := { Sounding.start 0 with
      phase := .inFlight, request := none, flight := some ⟨true, false, 15, [], some 0, none⟩ } }

/-- The fill law of `thresholdZero` holds, since FULL is clear. -/
theorem thresholdZero_fullLaw : thresholdZero.FullLaw := ⟨nofun, nofun⟩

/-- With a threshold of 0 the end of the sounding sets FULL at the measured fill 0. -/
theorem soundingEnd_thresholdZero : ∃ n : Node, step ⟨thresholdZero, [.soundingEnd 0]⟩ = .next ⟨n, []⟩ ∧
    n.sounding.full = true ∧ n.sounding.fill = some 0 ∧ n.control.settings.fullThreshold = 0 :=
  ⟨_, rfl, by decide, by decide, by decide⟩

end Sys2Proof.Machine

/-- Refutes O57: its FULL law is not kept at a full threshold of 0, which the statement's states do not exclude (R186 gives
800 to 990): there a measured fill of 0 reaches the threshold, so FULL is set, and is not above 0 − 50. -/
theorem not_fullLawAndLogLawAreKept : ¬ Obligations.FullLawAndLogLawAreKept := by
  intro h
  obtain ⟨n, hstep, hfull, hfill, hthreshold⟩ := soundingEnd_thresholdZero
  obtain ⟨f, hf, hlt⟩ := ((h _ _ hstep).1 thresholdZero_fullLaw).1 hfull
  rw [hfill] at hf
  cases hf
  simp [hthreshold] at hlt

/-- Settles O55: the state after reset is one concrete node, with empty tables, in its read of the configuration. -/
theorem resetMeetsTheLaws : Obligations.ResetMeetsTheLaws :=
  ⟨⟨by decide, by decide, by decide, by decide, by decide, by decide, by decide, by decide, by decide, by decide⟩,
    ⟨by decide, .nil, nofun, .nil, by decide⟩, rfl, ⟨nofun, fun _ => rfl⟩, ⟨by decide, nofun, nofun⟩,
    ⟨nofun, nofun, nofun, fun _ => rfl⟩,
    ⟨nofun, nofun, nofun, nofun, fun _ => ⟨rfl, rfl, rfl⟩, Nat.le_refl _, nofun, nofun, by decide⟩,
    ⟨by decide, nofun, nofun, fun _ => ⟨rfl, rfl⟩⟩, ⟨nofun, fun _ => rfl⟩,
    ⟨.nil, nofun, nofun, rfl, rfl, .nil, nofun, nofun, rfl, fun _ => rfl⟩, ⟨by decide, fun _ => rfl⟩,
    ⟨by decide, nofun, by decide⟩, rfl⟩

end

section
/-! What the operations that talk do, said once: the length of the transmit queue, FILL NOTICEs, the call unit's telegrams, the
trigger of a claim and the record requests. Each has its frame, what it does to the transmit queue, and what it changes. -/

open Sys2Proof Sys2Proof.Machine

namespace Sys2Proof.Machine

/-! ### The transmit queue under offers (R138 to R140) -/

/-- The length of a transmit queue once a FILL NOTICE waits in it: a newer notice takes the place of the one that waits
(R139), so notices alone never take it past this. -/
def noticedLength (queue : List QueueEntry) : Nat :=
  if queue.any (·.waitingNotice) then queue.length else queue.length + 1

theorem length_le_noticedLength (queue : List QueueEntry) : queue.length ≤ noticedLength queue := by
  unfold noticedLength
  split <;> omega

theorem noticedLength_le (queue : List QueueEntry) : noticedLength queue ≤ queue.length + 1 := by
  unfold noticedLength
  split <;> omega

/-- With no notice waiting there is a place for one beyond the queue's length. -/
theorem noticedLength_of_none {queue : List QueueEntry} (h : queue.any (·.waitingNotice) = false) :
    noticedLength queue = queue.length + 1 := by
  simp [noticedLength, h]

/-- An entry adds at most itself. -/
theorem noticedLength_insertEntry_le (e : QueueEntry) (queue : List QueueEntry) :
    noticedLength (insertEntry e queue) ≤ noticedLength queue + 1 := by
  have hany : (insertEntry e queue).any (·.waitingNotice) = (e.waitingNotice || queue.any (·.waitingNotice)) := by
    rw [(insertEntry_perm e queue).any_eq, List.any_cons]
  unfold noticedLength
  rw [hany, insertEntry_length]
  cases e.waitingNotice <;> cases queue.any (·.waitingNotice) <;> simp

/-- A notice that enters takes the place that was counted for it. -/
theorem noticedLength_insertEntry_notice {e : QueueEntry} (he : e.waitingNotice = true) {queue : List QueueEntry}
    (h : queue.any (·.waitingNotice) = false) : noticedLength (insertEntry e queue) = noticedLength queue := by
  have hany : (insertEntry e queue).any (·.waitingNotice) = true := by
    rw [(insertEntry_perm e queue).any_eq, List.any_cons, he, Bool.true_or]
  simp [noticedLength, hany, h]

/-- A waiting notice with the FILL NOTICE `t` in place of its own; any other entry as it is. -/
def QueueEntry.renoticed (t : Telegram) (e : QueueEntry) : QueueEntry := if e.waitingNotice then { e with telegram := t } else e

/-- A notice that waits is one that is not being sent. -/
theorem QueueEntry.waitingNotice_iff (e : QueueEntry) :
    e.waitingNotice = true ↔ e.telegram.kind = .fillNotice ∧ e.sending = false := by
  simp [QueueEntry.waitingNotice]

theorem QueueEntry.renoticed_of {t : Telegram} {e : QueueEntry} (h : e.waitingNotice = true) :
    e.renoticed t = { e with telegram := t } := if_pos h

theorem QueueEntry.renoticed_of_not {t : Telegram} {e : QueueEntry} (h : e.waitingNotice = false) : e.renoticed t = e := by
  simp [QueueEntry.renoticed, h]

/-- A replaced notice waits as the one before it did. -/
theorem QueueEntry.waitingNotice_renoticed {t : Telegram} (ht : t.kind = .fillNotice) (e : QueueEntry) :
    (e.renoticed t).waitingNotice = e.waitingNotice := by
  cases he : e.waitingNotice
  · rw [QueueEntry.renoticed_of_not he, he]
  · rw [QueueEntry.renoticed_of he, QueueEntry.waitingNotice_iff]
    exact ⟨ht, (e.waitingNotice_iff.mp he).2⟩

/-- The queue in which the FILL NOTICE `t` has taken the place of the one that waits (R139). -/
def renoticed (t : Telegram) (queue : List QueueEntry) : List QueueEntry := queue.map (QueueEntry.renoticed t)

/-- Replacing the waiting notice keeps the length, with a notice waiting as before. -/
theorem noticedLength_renoticed {t : Telegram} (ht : t.kind = .fillNotice) (queue : List QueueEntry) :
    noticedLength (renoticed t queue) = noticedLength queue := by
  have hsame : ((·.waitingNotice) ∘ QueueEntry.renoticed t) = (·.waitingNotice) :=
    funext (QueueEntry.waitingNotice_renoticed ht)
  unfold noticedLength renoticed
  rw [List.any_map, hsame, List.length_map]

/-- Replacing the waiting notice keeps every other entry. -/
theorem mem_renoticed_of_not_notice {t : Telegram} {queue : List QueueEntry} {x : QueueEntry} (hx : x ∈ queue)
    (hn : x.waitingNotice = false) : x ∈ renoticed t queue :=
  List.mem_map.mpr ⟨x, hx, QueueEntry.renoticed_of_not hn⟩

/-- With a notice waiting the new one waits in its place. -/
theorem exists_mem_renoticed {t : Telegram} {queue : List QueueEntry} (h : queue.any (·.waitingNotice) = true) :
    ∃ e ∈ renoticed t queue, e.telegram = t ∧ e.sending = false := by
  obtain ⟨e, he, hw⟩ := List.any_eq_true.mp h
  exact ⟨_, List.mem_map.mpr ⟨e, he, QueueEntry.renoticed_of hw⟩, rfl, (e.waitingNotice_iff.mp hw).2⟩

/-- `m` comes from `n` by offers of FILL NOTICEs and of at most `k` other telegrams: out of SAFE, and with room for them all, the
queue grows by no more than these, and every entry but a waiting notice stays. -/
structure Node.OffersUpTo (k : Nat) (n m : Node) : Prop where
  phase  : m.control.phase = n.control.phase
  length : n.control.phase ≠ .safe → noticedLength n.line.queue + k ≤ queueCapacity →
    noticedLength m.line.queue ≤ noticedLength n.line.queue + k
  stays  : n.control.phase ≠ .safe → noticedLength n.line.queue + k ≤ queueCapacity →
    ∀ x ∈ n.line.queue, x.waitingNotice = false → x ∈ m.line.queue

/-- What leaves the queue alone offers nothing. -/
theorem Node.OffersUpTo.of_eq {n m : Node} (hp : m.control.phase = n.control.phase) (hq : m.line.queue = n.line.queue) :
    Node.OffersUpTo 0 n m :=
  ⟨hp, fun _ _ => by rw [hq]; exact Nat.le_refl _, fun _ _ x hx _ => by rw [hq]; exact hx⟩

theorem Node.OffersUpTo.refl (n : Node) : Node.OffersUpTo 0 n n := .of_eq rfl rfl

theorem Node.OffersUpTo.trans {j k : Nat} {a b c : Node} (h : Node.OffersUpTo j a b) (h' : Node.OffersUpTo k b c) :
    Node.OffersUpTo (j + k) a c := by
  have hroom (hs : a.control.phase ≠ .safe) (hr : noticedLength a.line.queue + (j + k) ≤ queueCapacity) :
      b.control.phase ≠ .safe ∧ noticedLength b.line.queue ≤ noticedLength a.line.queue + j ∧
        noticedLength b.line.queue + k ≤ queueCapacity := by
    have hlen := h.length hs (by omega)
    exact ⟨h.phase ▸ hs, hlen, by omega⟩
  refine ⟨h'.phase.trans h.phase, fun hs hr => ?_, fun hs hr x hx hn => ?_⟩
  · obtain ⟨hs', hlen, hr'⟩ := hroom hs hr
    have := h'.length hs' hr'
    omega
  · obtain ⟨hs', -, hr'⟩ := hroom hs hr
    exact h'.stays hs' hr' x (h.stays hs (by omega) x hx hn) hn

/-- What leaves the queue alone then offers nothing more. -/
theorem Node.OffersUpTo.congr {k : Nat} {n m p : Node} (h : Node.OffersUpTo k n m)
    (hp : p.control.phase = m.control.phase) (hq : p.line.queue = m.line.queue) : Node.OffersUpTo k n p :=
  h.trans (.of_eq hp hq)

/-- The offers hang on the phase and the queue that they find alone. -/
theorem Node.OffersUpTo.congr_left {k : Nat} {a n m : Node} (h : Node.OffersUpTo k n m)
    (hp : n.control.phase = a.control.phase) (hq : n.line.queue = a.line.queue) : Node.OffersUpTo k a m :=
  Nat.zero_add k ▸ (Node.OffersUpTo.of_eq hp hq).trans h

theorem Node.OffersUpTo.mono {j k : Nat} {n m : Node} (h : Node.OffersUpTo j n m) (hjk : j ≤ k) : Node.OffersUpTo k n m :=
  ⟨h.phase, fun hs hr => (h.length hs (by omega)).trans (by omega), fun hs hr => h.stays hs (by omega)⟩

/-- A queue of at most two entries has room for a notice and two telegrams, and for one more then. -/
theorem Node.OffersUpTo.room {k : Nat} {n m : Node} (h : Node.OffersUpTo k n m) (hk : k ≤ 2) (hs : n.control.phase ≠ .safe)
    (hq : n.line.queue.length ≤ 2) : noticedLength m.line.queue < queueCapacity := by
  have := noticedLength_le n.line.queue
  have := h.length hs (by simp only [queueCapacity]; omega)
  simp only [queueCapacity]
  omega

/-! ### One offer -/

/-- An offer leaves the polarity alone. -/
theorem Node.offer_polarity (n : Node) (owner : Owner) (t : Telegram) :
    (n.offer owner t).1.line.polarity = n.line.polarity := by
  rcases n.offer_cases owner t with ⟨-, h⟩ | ⟨-, -, h⟩ | ⟨-, h⟩ | ⟨e, -, -, -, h⟩ | ⟨-, h⟩ <;> rw [h]
  · rfl
  · rfl
  · simp [Node.enqueue, Node.countQueueDrop]
  · rfl

/-- Out of SAFE and with a free place an offer takes the place of the waiting FILL NOTICE, or enters the queue. -/
theorem Node.offer_of_room {n : Node} {t : Telegram} (hs : n.control.phase ≠ .safe)
    (hr : n.line.queue.length < queueCapacity) (owner : Owner) :
    (t.kind = .fillNotice ∧ n.line.queue.any (·.waitingNotice) = true ∧
      n.offer owner t = (n.withLine { n.line with queue := renoticed t n.line.queue }, true)) ∨
    (¬ (t.kind = .fillNotice ∧ n.line.queue.any (·.waitingNotice) = true) ∧ n.offer owner t = (n.enqueue owner t, true)) := by
  unfold Node.offer
  rw [if_neg hs]
  by_cases ht : t.kind = .fillNotice ∧ n.line.queue.any (·.waitingNotice) = true
  · exact .inl ⟨ht.1, ht.2, if_pos ht⟩
  · exact .inr ⟨ht, by rw [if_neg ht, if_pos (by simpa [Node.queueHasRoom] using hr)]⟩

/-- What enters the queue is its telegram's entry, and nothing leaves. -/
theorem Node.mem_enqueue {n : Node} {owner : Owner} {t : Telegram} {x : QueueEntry} :
    x ∈ (n.enqueue owner t).line.queue ↔
      x = ⟨t, t.kind.accessClass, n.line.nextAge, 0, false, owner⟩ ∨ x ∈ n.line.queue := by
  simp [Node.enqueue]

/-- Out of SAFE and with room a telegram other than a notice waits in the queue, with every entry that was there. -/
theorem Node.offer_waits {n : Node} {t : Telegram} (hs : n.control.phase ≠ .safe) (ht : t.kind ≠ .fillNotice)
    (hr : noticedLength n.line.queue < queueCapacity) (owner : Owner) :
    (n.offer owner t).2 = true ∧ (∀ x ∈ n.line.queue, x ∈ (n.offer owner t).1.line.queue) ∧
      ∃ e ∈ (n.offer owner t).1.line.queue, e.telegram = t ∧ e.cls = t.kind.accessClass ∧ e.owner = owner ∧
        e.waitingNotice = false := by
  rcases Node.offer_of_room hs ((length_le_noticedLength _).trans_lt hr) owner with ⟨h, -⟩ | ⟨-, h⟩
  · exact absurd h ht
  · rw [h]
    exact ⟨rfl, fun x hx => Node.mem_enqueue.mpr (.inr hx), _, Node.mem_enqueue.mpr (.inl rfl), rfl, rfl, rfl,
      by simpa [QueueEntry.waitingNotice] using ht⟩

/-- An offered telegram is at most one. -/
theorem Node.offersUpTo_offer (n : Node) (owner : Owner) (t : Telegram) : Node.OffersUpTo 1 n (n.offer owner t).1 := by
  have hroom (hr : noticedLength n.line.queue + 1 ≤ queueCapacity) : n.line.queue.length < queueCapacity :=
    (length_le_noticedLength _).trans_lt hr
  refine ⟨(n.sameButOffers_offer owner t).phase, fun hs hr => ?length, fun hs hr x hx hn => ?stays⟩ <;>
    rcases n.offer_of_room hs (hroom hr) owner with ⟨ht, -, h⟩ | ⟨-, h⟩ <;> rw [h]
  case length.inl => exact (noticedLength_renoticed ht _).le.trans (Nat.le_succ _)
  case length.inr => exact noticedLength_insertEntry_le _ _
  case stays.inl => exact mem_renoticed_of_not_notice hx hn
  case stays.inr => exact Node.mem_enqueue.mpr (.inr hx)

/-- Out of SAFE and with the place counted for it, a FILL NOTICE replaces the one that waits, or enters when none does. -/
theorem Node.offer_notice_of_room {n : Node} {t : Telegram} (hs : n.control.phase ≠ .safe) (ht : t.kind = .fillNotice)
    (hr : noticedLength n.line.queue ≤ queueCapacity) (owner : Owner) :
    (n.line.queue.any (·.waitingNotice) = true ∧
      n.offer owner t = (n.withLine { n.line with queue := renoticed t n.line.queue }, true)) ∨
    (n.line.queue.any (·.waitingNotice) = false ∧ n.offer owner t = (n.enqueue owner t, true)) := by
  cases hw : n.line.queue.any (·.waitingNotice)
  · have hlt : n.line.queue.length < queueCapacity := by rwa [noticedLength_of_none hw] at hr
    rcases n.offer_of_room hs hlt owner with ⟨-, h, -⟩ | ⟨-, h⟩
    · simp [hw] at h
    · exact .inr ⟨rfl, h⟩
  · exact .inl ⟨rfl, by simp [Node.offer, hs, ht, hw]; rfl⟩

/-- An offered FILL NOTICE takes the place that is counted for it. -/
theorem Node.offersUpTo_offer_notice (n : Node) {t : Telegram} (ht : t.kind = .fillNotice) (owner : Owner) :
    Node.OffersUpTo 0 n (n.offer owner t).1 := by
  refine ⟨(n.sameButOffers_offer owner t).phase, fun hs hr => ?length, fun hs hr x hx hn => ?stays⟩ <;>
    rcases n.offer_notice_of_room hs ht hr owner with ⟨-, h⟩ | ⟨hnone, h⟩ <;> rw [h]
  case length.inl => exact (noticedLength_renoticed ht _).le
  case length.inr =>
    exact (noticedLength_insertEntry_notice ((QueueEntry.waitingNotice_iff _).mpr ⟨ht, rfl⟩) hnone).le
  case stays.inl => exact mem_renoticed_of_not_notice hx hn
  case stays.inr => exact Node.mem_enqueue.mpr (.inr hx)

/-- With the place counted for it an offered FILL NOTICE waits. -/
theorem Node.offer_notice_waits {n : Node} {t : Telegram} (hs : n.control.phase ≠ .safe) (ht : t.kind = .fillNotice)
    (hr : noticedLength n.line.queue ≤ queueCapacity) (owner : Owner) :
    ∃ e ∈ (n.offer owner t).1.line.queue, e.telegram = t ∧ e.sending = false := by
  rcases n.offer_notice_of_room hs ht hr owner with ⟨hw, h⟩ | ⟨-, h⟩ <;> rw [h]
  · exact exists_mem_renoticed hw
  · exact ⟨_, Node.mem_enqueue.mpr (.inl rfl), rfl, rfl⟩

/-- `m` holds no telegram of kind `k` that `n` did not hold. -/
def Node.NoNew (k : Kind) (n m : Node) : Prop := ∀ e ∈ m.line.queue, e.telegram.kind = k → e ∈ n.line.queue

theorem Node.NoNew.of_eq {k : Kind} {n m : Node} (h : m.line.queue = n.line.queue) : Node.NoNew k n m :=
  fun _ he _ => h ▸ he

theorem Node.NoNew.trans {k : Kind} {a b c : Node} (h : Node.NoNew k a b) (h' : Node.NoNew k b c) : Node.NoNew k a c :=
  fun e he hk => h e (h' e he hk) hk

/-- An offer brings no telegram of another kind, whatever it displaces. -/
theorem Node.noNew_offer (n : Node) {k : Kind} {t : Telegram} (ht : t.kind ≠ k) (owner : Owner) :
    Node.NoNew k n (n.offer owner t).1 := by
  intro e he hk
  rcases n.offer_cases owner t with ⟨-, h⟩ | ⟨-, -, h⟩ | ⟨-, h⟩ | ⟨x, -, -, -, h⟩ | ⟨-, h⟩ <;> rw [h] at he
  · exact he
  · obtain ⟨y, hy, rfl⟩ := List.mem_map.mp he
    cases hw : y.waitingNotice
    · simpa [hw] using hy
    · simp only [hw, if_true] at hk
      exact absurd hk ht
  · rcases Node.mem_enqueue.mp he with rfl | he
    · exact absurd hk ht
    · exact he
  · rcases Node.mem_enqueue.mp he with rfl | he
    · exact absurd hk ht
    · rw [Node.tellDisplaced_line] at he
      exact (List.mem_filter.mp he).1
  · exact he

end Sys2Proof.Machine
end

section
/-! What telling the street changes: the frames of an offer and of the units' talk, and FILL NOTICEs (R149, R150). -/

open Sys2Proof Sys2Proof.Machine

namespace Sys2Proof.Machine

/-! ### Frames -/

/-- What SameButOffers says of the log's fields but the harvest. -/
theorem Node.SameButOffers.held {n m : Node} (h : n.SameButOffers m) : m.log.held = n.log.held :=
  (congrArg Log.held h.logBut :)

theorem Node.SameButOffers.accounting {n m : Node} (h : n.SameButOffers m) : m.log.accounting = n.log.accounting :=
  (congrArg Log.accounting h.logBut :)

theorem Node.SameButOffers.appendList {n m : Node} (h : n.SameButOffers m) : m.log.appendList = n.log.appendList :=
  (congrArg Log.appendList h.logBut :)

/-- The frame holds of two nodes whose press unit is changed alike. -/
theorem Node.SameButOffers.withPress {n m : Node} (h : n.SameButOffers m) (p : Press) :
    (n.withPress p).SameButOffers (m.withPress p) :=
  { h with press := rfl }

/-- The frame holds of two nodes whose sounding unit is changed alike. -/
theorem Node.SameButOffers.withSounding {n m : Node} (h : n.SameButOffers m) (u : Sounding) :
    (n.withSounding u).SameButOffers (m.withSounding u) :=
  { h with sounding := rfl }

/-- The frame holds of two nodes whose hatch controller is changed alike. -/
theorem Node.SameButOffers.withHatch {n m : Node} (h : n.SameButOffers m) (x : Hatch) :
    (n.withHatch x).SameButOffers (m.withHatch x) :=
  { h with hatch := rfl }

/-- The frame holds of two nodes whose neighbour unit is changed alike. -/
theorem Node.SameButOffers.withNeighbour {n m : Node} (h : n.SameButOffers m) (x : Neighbour) :
    (n.withNeighbour x).SameButOffers (m.withNeighbour x) :=
  { h with neighbour := rfl }

/-- What the units leave as it is while they tell the street of a change: everything but the line unit, the harvest in flight,
the pending status answer, the last notice and its timer, and the call. -/
structure Node.SameButTalk (n m : Node) : Prop where
  now       : m.now = n.now
  power     : m.power = n.power
  phase     : m.control.phase = n.control.phase
  settings  : m.control.settings = n.control.settings
  sounding  : m.sounding = n.sounding
  cards     : m.cards = n.cards
  hatch     : m.hatch = n.hatch
  tally     : m.tally = n.tally
  clock     : m.clock = n.clock
  store     : m.store = n.store
  logBut    : { m.log with harvest := n.log.harvest } = n.log
  press     : m.press = n.press
  views     : m.neighbour.views = n.neighbour.views
  expected  : m.neighbour.expected = n.neighbour.expected
  polarity  : m.line.polarity = n.line.polarity
  relay     : m.relay = n.relay

theorem Node.SameButTalk.refl (n : Node) : n.SameButTalk n :=
  ⟨rfl, rfl, rfl, rfl, rfl, rfl, rfl, rfl, rfl, rfl, rfl, rfl, rfl, rfl, rfl, rfl⟩

theorem Node.SameButTalk.trans {a b c : Node} (h : a.SameButTalk b) (k : b.SameButTalk c) : a.SameButTalk c where
  now := k.now.trans h.now
  power := k.power.trans h.power
  phase := k.phase.trans h.phase
  settings := k.settings.trans h.settings
  sounding := k.sounding.trans h.sounding
  cards := k.cards.trans h.cards
  hatch := k.hatch.trans h.hatch
  tally := k.tally.trans h.tally
  clock := k.clock.trans h.clock
  store := k.store.trans h.store
  logBut := by
    have hk := k.logBut
    have hh := h.logBut
    rw [← hk] at hh
    simpa using hh
  press := k.press.trans h.press
  views := k.views.trans h.views
  expected := k.expected.trans h.expected
  polarity := k.polarity.trans h.polarity
  relay := k.relay.trans h.relay

/-- An offer is talk. -/
theorem Node.SameButOffers.talk {n m : Node} (h : n.SameButOffers m) (hp : m.line.polarity = n.line.polarity) :
    n.SameButTalk m where
  now := h.now
  power := h.power
  phase := h.phase
  settings := h.settings
  sounding := h.sounding
  cards := h.cards
  hatch := h.hatch
  tally := h.tally
  clock := h.clock
  store := h.store
  logBut := h.logBut
  press := h.press
  views := congrArg Neighbour.views h.neighbour
  expected := congrArg Neighbour.expected h.neighbour
  polarity := hp
  relay := h.relay

/-- A change of the call is talk. -/
theorem Node.sameButTalk_withCall (n : Node) (c : Call) : n.SameButTalk (n.withCall c) :=
  ⟨rfl, rfl, rfl, rfl, rfl, rfl, rfl, rfl, rfl, rfl, rfl, rfl, rfl, rfl, rfl, rfl⟩

theorem Node.SameButTalk.held {n m : Node} (h : n.SameButTalk m) : m.log.held = n.log.held :=
  (congrArg Log.held h.logBut :)

theorem Node.SameButTalk.accounting {n m : Node} (h : n.SameButTalk m) : m.log.accounting = n.log.accounting :=
  (congrArg Log.accounting h.logBut :)

theorem Node.SameButTalk.appendList {n m : Node} (h : n.SameButTalk m) : m.log.appendList = n.log.appendList :=
  (congrArg Log.appendList h.logBut :)

theorem Node.SameButTalk.logPhase {n m : Node} (h : n.SameButTalk m) : m.log.phase = n.log.phase :=
  (congrArg Log.phase h.logBut :)

/-- The node's own telegrams hang on its configuration alone. -/
theorem Node.telegram_congr {n m : Node} (h : m.control.settings = n.control.settings) (kind : Kind) (dest : Nat)
    (payload : List Byte) : m.telegram kind dest payload = n.telegram kind dest payload := by
  simp [Node.telegram, Node.ownAddress, h]

/-! ### FILL NOTICEs (R149, R150) -/

/-- The FILL NOTICE of the present content, as the statements write it (R149). -/
theorem Node.presentNotice_eq (n : Node) : n.presentNotice = n.noticeTelegram n.noticeContent := rfl

/-- A content that agrees with itself calls for no notice. -/
theorem NoticeContent.not_callsForNotice_self (c : NoticeContent) : ¬ c.CallsForNotice c := by
  unfold NoticeContent.CallsForNotice
  cases c.fill <;> simp

/-- Another call state calls for a notice. -/
theorem NoticeContent.callsForNotice_of_callState {c last : NoticeContent} (h : c.callState ≠ last.callState) :
    c.CallsForNotice last := by
  unfold NoticeContent.CallsForNotice
  tauto

/-- What an offered notice makes of the neighbour unit: the content is the last notice, and the timer has 60 min (R150). -/
theorem Node.offerNotice_neighbour (n : Node) :
    n.offerNotice.neighbour = { n.neighbour with
      last := some n.noticeContent, lastAt := some n.now, timer := some (n.now + 3600000000) } := by
  have h := n.sameButOffers_offerOnly .neighbourUnit (n.noticeTelegram n.noticeContent)
  unfold Node.offerNotice
  simp only [Node.withNeighbour_neighbour, h.neighbour, h.now]
  rfl

/-- The frame of an offered notice. -/
theorem Node.offerNotice_same (n : Node) : (n.withNeighbour n.offerNotice.neighbour).SameButOffers n.offerNotice :=
  (n.sameButOffers_offerOnly .neighbourUnit (n.noticeTelegram n.noticeContent)).withNeighbour _

/-- An offered notice is talk. -/
theorem Node.offerNotice_talk (n : Node) : n.SameButTalk n.offerNotice := by
  have h := n.offerNotice_same
  have hn := n.offerNotice_neighbour
  exact { h with
    views := (congrArg Neighbour.views hn :)
    expected := (congrArg Neighbour.expected hn :)
    polarity := n.offer_polarity _ _ }

/-- An offered notice takes only the place counted for it. -/
theorem Node.offersUpTo_offerNotice (n : Node) : Node.OffersUpTo 0 n n.offerNotice :=
  (n.offersUpTo_offer_notice (t := n.noticeTelegram n.noticeContent) rfl .neighbourUnit).congr rfl rfl

/-- In ACTIVE the present content is compared with the last notice, and calls for a new one or does not (R150). -/
theorem Node.noticeCheck_cases (n : Node) :
    (n.noticeCheck = n ∧ (n.neighbour.phase = .active →
      ∃ last, n.neighbour.last = some last ∧ ¬ n.noticeContent.CallsForNotice last)) ∨
    (n.noticeCheck = n.offerNotice ∧ n.neighbour.phase = .active ∧
      ∀ last, n.neighbour.last = some last → n.noticeContent.CallsForNotice last) := by
  unfold Node.noticeCheck
  split
  next ha =>
    split
    next hnone => exact .inr ⟨rfl, ha, fun last h => by simp [hnone] at h⟩
    next last hlast =>
      split
      next hd => exact .inr ⟨rfl, ha, fun x hx => by
        obtain rfl := Option.some.inj (hlast.symm.trans hx)
        exact (n.noticeContent.differs_iff _).mp hd⟩
      next hd => exact .inl ⟨rfl, fun _ => ⟨last, hlast, fun hc => hd ((n.noticeContent.differs_iff _).mpr hc)⟩⟩
  next ha => exact .inl ⟨rfl, fun h => absurd h ha⟩

/-- The frame of the comparison. -/
theorem Node.noticeCheck_same (n : Node) : (n.withNeighbour n.noticeCheck.neighbour).SameButOffers n.noticeCheck := by
  rcases n.noticeCheck_cases with ⟨h, -⟩ | ⟨h, -, -⟩ <;> rw [h]
  · exact .refl n
  · exact n.offerNotice_same

/-- The comparison is talk. -/
theorem Node.noticeCheck_talk (n : Node) : n.SameButTalk n.noticeCheck := by
  rcases n.noticeCheck_cases with ⟨h, -⟩ | ⟨h, -, -⟩ <;> rw [h]
  · exact .refl n
  · exact n.offerNotice_talk

/-- The comparison leaves the call alone. -/
theorem Node.noticeCheck_call (n : Node) : n.noticeCheck.call = n.call := n.noticeCheck_same.call

/-- The comparison keeps the neighbour unit's phase. -/
theorem Node.noticeCheck_phase (n : Node) : n.noticeCheck.neighbour.phase = n.neighbour.phase := by
  rcases n.noticeCheck_cases with ⟨h, -⟩ | ⟨h, -, -⟩ <;> rw [h]
  exact (congrArg Neighbour.phase n.offerNotice_neighbour :)

/-- The comparison takes only the place counted for a notice. -/
theorem Node.offersUpTo_noticeCheck (n : Node) : Node.OffersUpTo 0 n n.noticeCheck := by
  rcases n.noticeCheck_cases with ⟨h, -⟩ | ⟨h, -, -⟩ <;> rw [h]
  · exact .refl n
  · exact n.offersUpTo_offerNotice

/-- The comparison brings no telegram but notices. -/
theorem Node.noNew_noticeCheck (n : Node) {k : Kind} (hk : .fillNotice ≠ k) : Node.NoNew k n n.noticeCheck := by
  rcases n.noticeCheck_cases with ⟨h, -⟩ | ⟨h, -, -⟩ <;> rw [h]
  · exact .of_eq rfl
  · exact (n.noNew_offer (t := n.noticeTelegram n.noticeContent) hk .neighbourUnit).trans (.of_eq rfl)

/-- With the place counted for it the notice of the present content waits. -/
theorem Node.offerNotice_waits {n : Node} (hs : n.control.phase ≠ .safe) (hr : noticedLength n.line.queue ≤ queueCapacity) :
    ∃ e ∈ n.offerNotice.line.queue, e.telegram = n.presentNotice ∧ e.sending = false :=
  Node.offer_notice_waits (t := n.noticeTelegram n.noticeContent) hs rfl hr .neighbourUnit

/-- The content hangs on the sounding unit, the press, the hatch controller and the call. -/
theorem Node.noticeContent_congr {n m : Node} (hs : m.control.settings = n.control.settings) (hu : m.sounding = n.sounding)
    (hp : m.press = n.press) (hh : m.hatch = n.hatch) (hc : m.call.state = n.call.state) :
    m.noticeContent = n.noticeContent := by
  simp [Node.noticeContent, Node.serviceRuns, hs, hu, hp, hh, hc]

/-- The notice hangs on the content and the configuration. -/
theorem Node.presentNotice_congr {n m : Node} (hs : m.control.settings = n.control.settings)
    (hc : m.noticeContent = n.noticeContent) : m.presentNotice = n.presentNotice := by
  simp only [Node.presentNotice_eq, Node.noticeTelegram, hc, hs, Node.telegram_congr hs]

/-- The comparison leaves the content as it is. -/
theorem Node.noticeCheck_content (n : Node) : n.noticeCheck.noticeContent = n.noticeContent :=
  Node.noticeContent_congr n.noticeCheck_talk.settings n.noticeCheck_talk.sounding n.noticeCheck_talk.press
    n.noticeCheck_talk.hatch (congrArg Call.state n.noticeCheck_call)

theorem Node.offerNotice_content (n : Node) : n.offerNotice.noticeContent = n.noticeContent :=
  Node.noticeContent_congr n.offerNotice_talk.settings n.offerNotice_talk.sounding n.offerNotice_talk.press
    n.offerNotice_talk.hatch (congrArg Call.state n.offerNotice_same.call)

/-- One comparison after a change is the notice that follows it (R150). -/
theorem Node.noticeFollows_noticeCheck {before n : Node} (hn : n.neighbour = before.neighbour)
    (hq : n.line.queue = before.line.queue) (hp : n.control.phase = before.control.phase) :
    Node.NoticeFollows before n.noticeCheck := by
  intro last hactive hlast
  rw [n.noticeCheck_content]
  rw [← hn] at hactive hlast
  rcases n.noticeCheck_cases with ⟨h, hquiet⟩ | ⟨h, -, hcalls⟩
  · obtain ⟨x, hx, hnot⟩ := hquiet hactive
    obtain rfl := Option.some.inj (hlast.symm.trans hx)
    rw [h]
    exact ⟨fun _ => hn, fun hc => absurd hc hnot⟩
  · refine ⟨fun hc => absurd (hcalls last hlast) hc, fun _ => ⟨?_, fun hs hlen => ?_⟩⟩
    · rw [h, n.offerNotice_neighbour, n.offerNotice_talk.now, hn]
    · have hroom : noticedLength n.line.queue ≤ queueCapacity := by
        have := noticedLength_le n.line.queue
        simp only [queueCapacity]
        rw [hq] at this ⊢
        omega
      rw [h, Node.presentNotice_congr n.offerNotice_talk.settings n.offerNotice_content]
      exact Node.offerNotice_waits (hp ▸ hs) hroom

end Sys2Proof.Machine
end

section
/-! Record requests (R94), the press unit beside the hatch (R123, R125) and the trigger of a claim (R112). -/

open Sys2Proof Sys2Proof.Machine

namespace Sys2Proof.Machine

/-! ### Record requests (R91, R94) -/

/-- An event that arrives changes neither the held records nor the accounting content. -/
theorem Log.enterEvent_held (l : Log) (e : LogEntry) : (l.enterEvent e).held = l.held := by
  unfold Log.enterEvent
  split <;> rfl

theorem Log.enterEvent_accounting (l : Log) (e : LogEntry) : (l.enterEvent e).accounting = l.accounting := by
  unfold Log.enterEvent
  split <;> rfl

/-- With a place free in the event list an event waits behind the append list (R94). -/
theorem Log.enterEvent_appendList {l : Log} (h : l.eventsHeld < 3) (e : LogEntry) :
    (l.enterEvent e).appendList = l.appendList ++ [e] := by
  unfold Log.enterEvent eventCapacity
  rw [if_pos h]

/-- A record request changes the log alone, and there neither the held records nor the accounting content; in an OPEN log with a
place for an event the record waits behind the append list (R94). -/
theorem Node.requestRecord_spec (n : Node) (body : RecordBody) (fill : Option Nat) :
    ∃ l, n.requestRecord body fill = n.withLog l ∧ l.held = n.log.held ∧ l.accounting = n.log.accounting ∧
      (n.log.phase = .opened → n.log.eventsHeld < 3 → l.appendList = n.log.appendList ++ [n.entryOf body fill]) := by
  unfold Node.requestRecord
  split
  next h => exact ⟨_, rfl, rfl, rfl, fun ho => by simp [ho] at h⟩
  next h =>
    exact ⟨_, rfl, Log.enterEvent_held _ _, Log.enterEvent_accounting _ _, fun _ hroom => Log.enterEvent_appendList hroom _⟩

/-! ### The press unit beside the hatch (R112, R123, R125) -/

/-- An interruption counts no deposit. -/
theorem Press.interrupt_deposits (p : Press) (now : Moment) : (p.interrupt now).deposits = p.deposits := by
  unfold Press.interrupt
  split
  · unfold Press.endDrive; split <;> rfl
  · split <;> rfl
  · unfold Press.endDrive
    split
    · split <;> rfl
    · rfl
  · rfl

/-- The press unit alone hears of an interruption, and counts no deposit. -/
theorem Node.interruptPress_spec (n : Node) :
    ∃ p, n.interruptPress = n.withPress p ∧ p.deposits = n.press.deposits := by
  unfold Node.interruptPress
  split
  · exact ⟨_, rfl, Press.interrupt_deposits _ _⟩
  · exact ⟨n.press, rfl, rfl⟩

/-- A paused return that goes on changes the press unit alone: neither its state, its claim nor its deposits. -/
theorem Node.resumePress_spec (n : Node) :
    ∃ p, n.resumePress = n.withPress p ∧ p.state = n.press.state ∧ p.claim = n.press.claim ∧ p.retry = n.press.retry ∧
      p.deposits = n.press.deposits := by
  unfold Node.resumePress
  split
  · exact ⟨_, rfl, rfl, rfl, rfl, rfl⟩
  · exact ⟨n.press, rfl, rfl, rfl, rfl, rfl⟩

/-- A completed deposit counted by a fitted press (R113, R128). -/
theorem Node.countPressDeposit_eq (n : Node) :
    n.countPressDeposit = n.withPress { n.press with
      deposits := if n.control.settings.pressFitted then min 255 (n.press.deposits + 1) else n.press.deposits } := by
  unfold Node.countPressDeposit
  split <;> rfl

/-! ### The trigger of a claim (R112, R114) -/

/-- The conditions of R112 with the press at HOME. -/
def Node.triggered (n : Node) : Prop :=
  n.control.settings.pressFitted = true ∧ n.press.state = .home ∧ n.triggerHolds = true

/-- The conditions of R112 as the statements write them. -/
theorem Node.triggerHolds_iff (n : Node) : n.triggerHolds = true ↔
    (n.hatch.station = .ready ∨ n.hatch.station = .service) ∧
    ((∃ f, n.sounding.fill = some f ∧ n.control.settings.pressThreshold ≤ f) ∨ n.sounding.full = true) ∧
    4 ≤ n.press.deposits ∧ n.inPressHours = true ∧ n.hatch.phase = .idle ∧ n.hatch.hatch = .closed ∧
    n.hatch.lift = .seated ∧ n.sounding.flight = none ∧ n.press.retry = none := by
  have hfill : n.fillToPress = true ↔
      (∃ f, n.sounding.fill = some f ∧ n.control.settings.pressThreshold ≤ f) ∨ n.sounding.full = true := by
    unfold Node.fillToPress
    cases n.sounding.fill <;> simp
  simp [Node.triggerHolds, hfill, Node.hatchQuiet, Node.hatchClosed, Node.liftSeated, Node.soundingInFlight, and_assoc]

/-- Where the conditions do not hold the trigger does nothing. -/
theorem Node.pressTrigger_of_not {n : Node} (h : ¬ n.triggered) : n.pressTrigger = n := if_neg h

/-- While something goes on at the hatch the trigger does nothing. -/
theorem Node.pressTrigger_of_busy {n : Node} (h : n.hatch.phase ≠ .idle ∨ n.hatch.hatch ≠ .closed ∨ n.hatch.lift ≠ .seated) :
    n.pressTrigger = n := by
  refine Node.pressTrigger_of_not fun ht => ?_
  obtain ⟨-, -, -, -, hidle, hclosed, hseated, -⟩ := n.triggerHolds_iff.mp ht.2.2
  tauto

/-- The claim that the trigger offers: 50 s of the own island (R112, R114). -/
def Node.claimTelegram (n : Node) : Telegram :=
  n.telegram .pressClaim toAll [BitVec.ofNat 8 n.control.settings.island, BitVec.ofNat 8 claimSeconds]

/-- The node CLAIMING, its claim offered to the line unit. -/
def Node.claiming (n : Node) : Node :=
  let m := (n.offer .pressUnit n.claimTelegram).1
  m.withPress { m.press with claim := .queued, state := .claiming }

/-- Where the conditions hold the claim is offered and the press is CLAIMING; a refused claim is dropped (R112, R114). -/
theorem Node.pressTrigger_of {n : Node} (h : n.triggered) :
    n.pressTrigger = if (n.offer .pressUnit n.claimTelegram).2 then n.claiming else n.claiming.claimDropped := if_pos h

/-- Where the conditions hold and the queue has room the press is CLAIMING. -/
theorem Node.pressTrigger_of_room {n : Node} (h : n.triggered) (hs : n.control.phase ≠ .safe)
    (hr : noticedLength n.line.queue < queueCapacity) : n.pressTrigger = n.claiming := by
  have htaken := (Node.offer_waits (t := n.claimTelegram) hs (by simp [Node.claimTelegram, Node.telegram]) hr .pressUnit).1
  rw [Node.pressTrigger_of h, if_pos htaken]

/-- With room the claim waits in the queue, with every entry that was there. -/
theorem Node.claiming_waits {n : Node} (hs : n.control.phase ≠ .safe) (hr : noticedLength n.line.queue < queueCapacity) :
    (∀ x ∈ n.line.queue, x ∈ n.claiming.line.queue) ∧
      ∃ e ∈ n.claiming.line.queue, e.owner = .pressUnit ∧ e.telegram = n.claimTelegram := by
  obtain ⟨-, hstays, e, he, htel, -, howner, -⟩ :=
    Node.offer_waits (t := n.claimTelegram) hs (by simp [Node.claimTelegram, Node.telegram]) hr .pressUnit
  exact ⟨hstays, e, he, howner, htel⟩

/-- A dropped claim leaves the press at HOME; it changes the random register beside, and counts no deposit (R114, R117). -/
theorem Node.claimDropped_of {n : Node} (h : n.press.state = .claiming) :
    ∃ p l, n.claimDropped = (n.withPress p).withLine l ∧ p.state = .home ∧ p.deposits = n.press.deposits := by
  unfold Node.claimDropped
  rw [if_pos h]
  exact ⟨_, _, rfl, rfl, rfl⟩

/-- What the trigger changes: the press unit and what an offer changes, with no deposit counted and no fault begun or ended. -/
theorem Node.pressTrigger_same (n : Node) :
    (n.withPress n.pressTrigger.press).SameButOffers n.pressTrigger ∧
      n.pressTrigger.press.deposits = n.press.deposits ∧
      (n.pressTrigger.press.state = .fault ↔ n.press.state = .fault) := by
  by_cases ht : n.triggered
  · have hoffer := n.sameButOffers_offer .pressUnit n.claimTelegram
    have hdeposits : n.claiming.press.deposits = n.press.deposits := (congrArg Press.deposits hoffer.press :)
    have hhome : n.press.state = .home := ht.2.1
    rw [Node.pressTrigger_of ht]
    split
    · exact ⟨hoffer.withPress _, hdeposits, by simp [Node.claiming, hhome]⟩
    · obtain ⟨p, l, hdrop, hp, hcount⟩ := Node.claimDropped_of (n := n.claiming) rfl
      rw [hdrop]
      exact ⟨(hoffer.withPress p).trans (Node.sameButOffers_withLine _ _), hcount.trans hdeposits, by simp [hp, hhome]⟩
  · rw [Node.pressTrigger_of_not ht]
    exact ⟨.refl n, rfl, .rfl⟩

/-- With room for a claim every entry stays in the queue. -/
theorem Node.pressTrigger_stays {n : Node} (hs : n.control.phase ≠ .safe) (hr : noticedLength n.line.queue < queueCapacity)
    {x : QueueEntry} (hx : x ∈ n.line.queue) : x ∈ n.pressTrigger.line.queue := by
  by_cases ht : n.triggered
  · rw [Node.pressTrigger_of_room ht hs hr]
    exact (Node.claiming_waits hs hr).1 x hx
  · rwa [Node.pressTrigger_of_not ht]

/-- The trigger leaves the content of a notice as it is. -/
theorem Node.pressTrigger_content (n : Node) : n.pressTrigger.noticeContent = n.noticeContent := by
  obtain ⟨hsame, -, hfault⟩ := n.pressTrigger_same
  have hpress : (n.pressTrigger.press.state == .fault) = (n.press.state == .fault) := by
    rw [Bool.eq_iff_iff, beq_iff_eq, beq_iff_eq, hfault]
  simp only [Node.noticeContent, Node.serviceRuns, hsame.sounding, hsame.settings, hsame.hatch, hsame.call, hpress]
  simp

/-- What the trigger makes of the conditions as a step leaves them (R112, R114). -/
theorem Node.claimsWhenTriggered {before n : Node} (hset : n.control.settings = before.control.settings)
    (hstate : n.press.state = before.press.state) (hclaim : n.press.claim = before.press.claim)
    (hretry : n.press.retry = before.press.retry) (hs : n.control.phase ≠ .safe)
    (hroom : before.line.queue.length ≤ 2 → noticedLength n.line.queue < queueCapacity) :
    Node.ClaimsWhenTriggered before n.pressTrigger := by
  obtain ⟨hsame, hdeposits, -⟩ := n.pressTrigger_same
  have hhours : n.pressTrigger.inPressHours = n.inPressHours := by
    simp only [Node.inPressHours, hsame.clock, hsame.settings, Node.withPress_clock, Node.withPress_control]
  have hdue : Node.ClaimDue before n.pressTrigger ↔ n.triggered := by
    unfold Node.ClaimDue Node.triggered
    rw [n.triggerHolds_iff, hhours, hdeposits, hsame.hatch, hsame.sounding, hstate, hretry, hset]
    simp only [Node.withPress_hatch, Node.withPress_sounding]
    grind
  unfold Node.ClaimsWhenTriggered
  rw [hdue]
  refine ⟨fun ht hq => ?_, fun ht => ?_⟩
  · obtain ⟨-, e, he, howner, htel⟩ := Node.claiming_waits hs (hroom hq)
    rw [Node.pressTrigger_of_room ht hs (hroom hq)]
    refine ⟨rfl, rfl, e, he, howner, ?_⟩
    rw [htel, Node.claimTelegram, Node.telegram_congr hset, hset]
    rfl
  · rw [Node.pressTrigger_of_not ht]
    exact ⟨hstate, hclaim⟩

end Sys2Proof.Machine
end

section
/-! O18: what an opening does by phase (R61), and HATCH STUCK (R64). -/

open Sys2Proof Sys2Proof.Machine

namespace Sys2Proof.Machine

/-! ### The end of a release (R57, R59, R66) -/

/-- A standing indication that ends changes the panel and the buzzer alone (R66). -/
theorem Hatch.endStanding_spec (h : Hatch) : ∃ p b, h.endStanding = { h with panel := p, buzzer := b } := by
  unfold Hatch.endStanding
  split
  · split
    · exact ⟨_, _, rfl⟩
    · exact ⟨h.panel, h.buzzer, rfl⟩
  · exact ⟨h.panel, h.buzzer, rfl⟩

/-- What the end of a release leaves of the hatch controller, the panel and the buzzer apart. -/
theorem Hatch.endRelease_spec (h : Hatch) : ∃ p b, h.endRelease = { h with
    phase := .idle, window := none, deferred := none, acceptance := none, lock := .off, panel := p, buzzer := b } :=
  Hatch.endStanding_spec _

/-- What an opening leaves of a window, the panel and the buzzer apart. -/
theorem Hatch.leaveWindow_spec (h : Hatch) (phase : HatchPhase) : ∃ p b, h.leaveWindow phase = { h with
    phase := phase, window := none, lock := .off, panel := p, buzzer := b } :=
  Hatch.endStanding_spec _

/-! ### An opening by phase (R61) -/

/-- The acceptance held is a crew card's (R55). -/
theorem Hatch.crewAccepted_iff (h : Hatch) : h.crewAccepted = true ↔ h.acceptance.map (·.cls) = some .crew := by
  unfold Hatch.crewAccepted
  cases h.acceptance <;> simp

/-- What an opening does by the phase it finds, in a hatch controller and a log: in WINDOW the acceptance is kept for a deposit
or a crew opening, in IDLE and DEFERRED the opening is a forced one, and in every other phase nothing changes (R61). -/
structure Node.OpenedAs (n : Node) (h : Hatch) (l : Log) : Prop where
  hatch     : h.hatch = n.hatch.hatch
  openSince : h.openSince = n.hatch.openSince
  lock      : (n.hatch.lock ≠ .off → n.hatch.phase = .window) → h.lock = .off
  held      : l.held = n.log.held
  account   : l.accounting = n.log.accounting
  window    : n.hatch.phase = .window →
    h.phase = (if n.hatch.acceptance.map (·.cls) = some .crew then .crewOpening else .deposit) ∧ h.window = none ∧
      h.acceptance = n.hatch.acceptance ∧ l.appendList = n.log.appendList
  forced    : n.hatch.phase = .idle ∨ n.hatch.phase = .deferred →
    h.phase = .forcedOpening ∧ h.panel = some ⟨.forced, some (n.now + 4000000)⟩ ∧
      (n.hatch.phase = .deferred → h.acceptance = none ∧ h.deferred = none) ∧
      (n.log.phase = .opened → n.log.eventsHeld < 3 →
        l.appendList = n.log.appendList ++ [n.entryOf .forced n.sounding.fill])

/-- The hatch controller at a forced opening (R61). -/
def Hatch.forcedAt (h : Hatch) (now : Moment) : Hatch := ({ h with phase := .forcedOpening } : Hatch).show now .forced

/-- A forced opening changes the hatch controller and the log alone. -/
theorem Node.forcedOpening_spec (n : Node) : ∃ l,
    n.forcedOpening = (n.withHatch (n.hatch.forcedAt n.now)).withLog l ∧
      l.held = n.log.held ∧ l.accounting = n.log.accounting ∧
      (n.log.phase = .opened → n.log.eventsHeld < 3 →
        l.appendList = n.log.appendList ++ [n.entryOf .forced n.sounding.fill]) :=
  Node.requestRecord_spec (n.withHatch (n.hatch.forcedAt n.now)) .forced n.sounding.fill

/-- An opening changes the hatch controller and the log alone, as its phase says. -/
theorem Node.openByPhase_spec (n : Node) :
    ∃ h l, n.openByPhase = (n.withHatch h).withLog l ∧ n.OpenedAs h l := by
  have lockOff (hp : n.hatch.phase ≠ .window) (hl : n.hatch.lock ≠ .off → n.hatch.phase = .window) : n.hatch.lock = .off := by
    by_contra hoff
    exact hp (hl hoff)
  unfold Node.openByPhase
  split
  next hp =>
    obtain ⟨p, b, hleave⟩ := n.hatch.leaveWindow_spec (if n.hatch.crewAccepted then .crewOpening else .deposit)
    refine ⟨n.hatch.leaveWindow (if n.hatch.crewAccepted then .crewOpening else .deposit), n.log, rfl, ?_⟩
    rw [hleave]
    exact { hatch := rfl, openSince := rfl, lock := fun _ => rfl, held := rfl, account := rfl
            window := fun _ => ⟨by simp only [Hatch.crewAccepted_iff], rfl, rfl, rfl⟩
            forced := by simp [hp] }
  next hp =>
    obtain ⟨p, b, hend⟩ := n.hatch.endRelease_spec
    obtain ⟨l, hforced, hheld, hacc, happ⟩ := (n.withHatch n.hatch.endRelease).forcedOpening_spec
    refine ⟨_, l, hforced, ?_⟩
    rw [Node.withHatch_hatch, hend]
    exact { hatch := rfl, openSince := rfl, lock := fun _ => rfl, held := hheld, account := hacc
            window := by simp [hp]
            forced := fun _ => ⟨rfl, rfl, fun _ => ⟨rfl, rfl⟩, happ⟩ }
  next hp =>
    obtain ⟨l, hforced, hheld, hacc, happ⟩ := n.forcedOpening_spec
    exact ⟨_, l, hforced,
      { hatch := rfl, openSince := rfl, lock := lockOff (by simp [hp]), held := hheld, account := hacc
        window := by simp [hp]
        forced := fun _ => ⟨rfl, rfl, by simp [hp], happ⟩ }⟩
  all_goals
    rename_i hp
    exact ⟨n.hatch, n.log, rfl,
      { hatch := rfl, openSince := rfl, lock := lockOff (by simp [hp]), held := rfl, account := rfl
        window := by simp [hp]
        forced := by simp [hp] }⟩

/-- An opening of a closed hatch (R61): as its phase says, with the sounding in flight abandoned (R22) and the press told; the
trigger finds the hatch open. -/
theorem Node.hatchOpens_spec {n : Node} (hc : n.hatch.hatch = .closed) :
    let opening := n.withHatch { n.hatch with hatch := .opened, openSince := some n.now }
    ∃ h l p, opening.OpenedAs h l ∧ n.hatchOpens =
      (((n.withHatch h).withLog l).withSounding (n.sounding.abandonedAt n.now)).withPress p := by
  intro opening
  obtain ⟨h, l, hopen, hspec⟩ := opening.openByPhase_spec
  obtain ⟨p, hpress, -⟩ := (((n.withHatch h).withLog l).withSounding (n.sounding.abandonedAt n.now)).interruptPress_spec
  refine ⟨h, l, p, hspec, ?_⟩
  have habandoned : opening.openByPhase.abandonSounding.interruptPress =
      (((n.withHatch h).withLog l).withSounding (n.sounding.abandonedAt n.now)).withPress p := by
    rw [hopen, Node.abandonSounding_eq]
    exact hpress
  have hnot : h.hatch ≠ .closed := by
    rw [hspec.hatch]
    nofun
  unfold Node.hatchOpens
  rw [if_pos hc]
  exact (congrArg Node.pressTrigger habandoned).trans (Node.pressTrigger_of_busy (.inr (.inl hnot)))

/-- HATCH STUCK is set 90 s after the opening, and the change is compared (R64). -/
theorem Node.hatchSticks_of {n : Node} {t : Moment} (ht : n.hatch.openSince = some t) (hs : n.hatch.stuck = false) :
    n.hatchSticks = ((n.reach (t + 90000000)).withHatch { n.hatch with stuck := true }).noticeCheck := by
  simp [Node.hatchSticks, ht, hs]
  rfl

end Sys2Proof.Machine

/-- Settles O18: an opening by the phase it finds, and HATCH STUCK with the one comparison that follows it. -/
theorem hatchOpeningActsByPhase : Obligations.HatchOpeningActsByPhase := by
  intro s dt hacts now' h
  refine ⟨fun hclosed hlaw => ?opening, fun t hsince hstuck => ?stuck⟩
  case opening =>
    obtain ⟨g, l, p, hspec, hopens⟩ := Node.hatchOpens_spec (n := s.node.advance dt) hclosed
    have hexec : exec (.hatchOpen dt) s = .next ⟨(s.node.advance dt).hatchOpens, s.pending⟩ :=
      State.perform_station hacts dt _
    rw [hopens] at hexec
    exact ⟨_, hexec, hspec.hatch, hspec.openSince, hspec.lock hlaw.driven, hspec.window, hspec.forced, rfl, rfl, rfl, rfl,
      hspec.held, hspec.account⟩
  case stuck =>
    have hexec : exec (.hatchStuck dt) s = .next ⟨(s.node.advance dt).hatchSticks, s.pending⟩ :=
      State.perform_station hacts dt _
    rw [Node.hatchSticks_of (n := s.node.advance dt) hsince hstuck] at hexec
    have htalk := (((s.node.advance dt).reach (t + 90000000)).withHatch { h with stuck := true }).noticeCheck_talk
    exact ⟨_, hexec, htalk.now, htalk.hatch, Node.noticeFollows_noticeCheck rfl rfl rfl, htalk.cards, htalk.store,
      htalk.sounding, htalk.press, htalk.tally⟩
end

section
/-! What a completed deposit makes of a node, once for every event that completes one (R16, R63). -/

open Sys2Proof Sys2Proof.Machine

namespace Sys2Proof.Machine

/-! ### The fill value between soundings (R16, R17, R18) -/

/-- The fill value and FULL as a deposit leaves them (R16, R18). -/
def Sounding.raisedTo (u : Sounding) (threshold : Nat) (fill : Option Nat) : Sounding :=
  { u with
    fill := fill
    full := match fill with
      | none => u.full
      | some f => if threshold ≤ f then true else if f ≤ threshold - 50 then false else u.full }

/-- A deposit raises the fill and arms a sounding 3 s later (R16). -/
theorem Node.depositEstimate_eq {n : Node} (h : n.sounding.phase ≠ .stopped) :
    n.depositEstimate = (n.withSounding
      ((n.sounding.raisedTo n.control.settings.fullThreshold n.raisedFill).armedFor (n.now + 3000000) false false)).noticeCheck := by
  have hraised : ({ n.sounding with
      fill := n.raisedFill
      full := if n.sounding.fill.isSome then fullRule n.control.settings.fullThreshold n.raisedFill n.sounding.full
        else n.sounding.full } : Sounding) = n.sounding.raisedTo n.control.settings.fullThreshold n.raisedFill := by
    unfold Sounding.raisedTo Node.raisedFill
    cases n.sounding.fill <;> rfl
  have harm := Sounding.arm_eq_armedFor (u := n.sounding.raisedTo n.control.settings.fullThreshold n.raisedFill) h
    (Nat.lt_add_of_pos_right (n := n.now) (k := 3000000) (by decide)) false false
  unfold Node.depositEstimate
  rw [if_neg h, hraised]
  exact congrArg (fun u => (n.withSounding u).noticeCheck) harm

/-- A lift empties the fill and abandons a sounding in flight (R17, R22). -/
theorem Node.liftFill_eq {n : Node} (h : n.sounding.phase ≠ .stopped) :
    n.liftFill = (n.withSounding
      (({ n.sounding with fill := none, full := false } : Sounding).abandonedAt n.now)).noticeCheck := by
  unfold Node.liftFill
  rw [if_neg h, Node.abandonSounding_eq]
  rfl

/-! ### A completed deposit (R63) -/

/-- The charge of the acceptance `a` (R83). -/
def Node.chargeFor (n : Node) (a : Acceptance) : Nat :=
  let full := (n.control.settings.baseRate * (4 * (a.band.getD 0).toNat) + 4) / 8
  min 255 (if n.neighbour.expected.any (fun e => e.card == a.card) then full / 2 else full)

/-- The TALLY NOTICE of a card (R73). -/
def Node.tallyNotice (n : Node) (a : Acceptance) : Telegram :=
  n.telegram .tallyNotice 0
    (bytesOf 4 a.card.toNat ++ [BitVec.ofNat 8 n.control.settings.fraction.code] ++ bytesOf 2 n.clock.day)

/-- The DEPOSIT record of a completed deposit (R91, R94). -/
def Node.depositEntry (n : Node) (a : Acceptance) : LogEntry :=
  ⟨.deposit a.card (n.chargeFor a) (a.unchecked || (n.tallyInUse.countDeposit a.card).isNone)
      (n.neighbour.expected.any (fun e => e.card == a.card)) n.hatch.service.isSome,
    n.clock.day, n.clock.seconds.map (· / 2), n.control.settings.fraction,
    n.sounding.fill.map (fun f => min 1000 (f + n.control.settings.bagIncrement))⟩

/-- The sounding unit after a completed deposit: its fill raised and a sounding armed, but in STOPPED (R16, R24). -/
def Node.estimated (n : Node) : Sounding :=
  if n.sounding.phase = .stopped then n.sounding
  else (n.sounding.raisedTo n.control.settings.fullThreshold
    (n.sounding.fill.map (fun f => min 1000 (f + n.control.settings.bagIncrement)))).armedFor (n.now + 3000000) false false

/-- The press unit after a completed deposit (R113, R128). -/
def Node.pressCounted (n : Node) : Press :=
  { n.press with
    deposits := if n.control.settings.pressFitted then min 255 (n.press.deposits + 1) else n.press.deposits }

/-- The log after the deposit of `a`: charged, and its record waiting (R84, R92, R94). -/
def Node.logCharged (n : Node) (a : Acceptance) : Log :=
  { n.log with
    accounting := { n.log.accounting with
      total := min 16777215 (n.log.accounting.total + n.chargeFor a)
      count := min 65535 (n.log.accounting.count + 1)
      hatchCycles := min 16777215 (n.log.accounting.hatchCycles + 1) }
    appendList := n.log.appendList ++ [n.depositEntry a] }

/-- The tally table after the deposit of `a`, rebuilt first (R63, R71, R76). -/
def Node.tallyCounted (n : Node) (a : Acceptance) : Tally := (n.tallyInUse.countDeposit a.card).getD n.tallyInUse

/-- What the completion of the deposit of `a` makes of `n` at every unit, and of the transmit queue (R63, R73). -/
structure Node.Completed (n : Node) (a : Acceptance) (m : Node) : Prop where
  now      : m.now = n.now
  phase    : m.control.phase = n.control.phase
  settings : m.control.settings = n.control.settings
  hatch    : m.hatch = { n.hatch with acceptance := none }
  tally    : m.tally = n.tallyCounted a
  log      : { m.log with harvest := n.log.harvest } = n.logCharged a
  sounding : m.sounding = n.estimated
  press    : m.press = n.pressCounted
  expected : m.neighbour.expected = n.neighbour.expected.filter (fun e => e.card != a.card)
  cards    : m.cards = n.cards
  store    : m.store = n.store
  clock    : m.clock = n.clock
  call     : m.call = n.call
  offers   : Node.OffersUpTo 1 n m
  noNew    : ∀ k, k ≠ .fillNotice → k ≠ .tallyNotice → Node.NoNew k n m
  notice   : n.control.phase ≠ .safe → noticedLength n.line.queue < queueCapacity →
    ∃ e ∈ m.line.queue, e.telegram = n.tallyNotice a ∧ e.waitingNotice = false

/-- A deposit's estimate changes the sounding unit, and tells of it (R16). -/
theorem Node.depositEstimate_same (n : Node) :
    (∃ x, x.expected = n.neighbour.expected ∧
      ((n.withSounding n.estimated).withNeighbour x).SameButOffers n.depositEstimate) ∧
    Node.OffersUpTo 0 n n.depositEstimate ∧ ∀ k, k ≠ .fillNotice → Node.NoNew k n n.depositEstimate := by
  by_cases h : n.sounding.phase = .stopped
  · have hid : n.depositEstimate = n := if_pos h
    have hestimated : n.estimated = n.sounding := if_pos h
    rw [hid, hestimated]
    exact ⟨⟨n.neighbour, rfl, .refl n⟩, .refl n, fun _ _ => .of_eq rfl⟩
  · have hestimate : n.depositEstimate = (n.withSounding n.estimated).noticeCheck := by
      rw [Node.depositEstimate_eq h, Node.estimated, if_neg h]
      rfl
    rw [hestimate]
    exact ⟨⟨_, (n.withSounding n.estimated).noticeCheck_talk.expected, (n.withSounding n.estimated).noticeCheck_same⟩,
      (n.withSounding n.estimated).offersUpTo_noticeCheck.congr_left rfl rfl,
      fun k hk => (Node.NoNew.of_eq rfl).trans ((n.withSounding n.estimated).noNew_noticeCheck hk.symm)⟩

/-- The node with the deposit of `a` counted, and its TALLY NOTICE offered (R71, R73). -/
def Node.depositTold (n : Node) (a : Acceptance) : Node :=
  (n.withTally (n.tallyCounted a)).offerOnly .tallyUnit (n.tallyNotice a)

/-- The expectation of `a` consumed, and the deposit charged and recorded (R83, R92, R94, R157). -/
def Node.enterCharged (n : Node) (a : Acceptance) (unchecked service : Bool) : Node :=
  let redirected := n.isExpected a.card
  let charge := chargeOf n.control.settings.baseRate ((a.band.getD 0).toNat) redirected
  let n := n.dropExpected a.card
  let n := n.withLog { n.log with accounting := n.log.accounting.deposited charge }
  n.enterDeposit (n.entryOf (.deposit a.card charge unchecked redirected service) n.raisedFill)

/-- Charging and recording change the redirect-expect list, the accounting content and the append list alone. -/
theorem Node.enterCharged_eq (n : Node) (a : Acceptance) (unchecked service : Bool) :
    n.enterCharged a unchecked service =
      (n.withNeighbour { n.neighbour with expected := n.neighbour.expected.filter (fun e => e.card != a.card) }).withLog
        { n.log with
          accounting := n.log.accounting.deposited (n.chargeFor a)
          appendList := n.log.appendList ++ [⟨.deposit a.card (n.chargeFor a) unchecked
              (n.neighbour.expected.any (fun e => e.card == a.card)) service, n.clock.day, n.clock.seconds.map (· / 2),
            n.control.settings.fraction,
            n.sounding.fill.map (fun f => min 1000 (f + n.control.settings.bagIncrement))⟩] } := by
  have hcharge : chargeOf n.control.settings.baseRate ((a.band.getD 0).toNat) (n.isExpected a.card) = n.chargeFor a := rfl
  simp only [Node.enterCharged, hcharge]
  rfl

/-- The node with the deposit of `a` counted, told, charged and recorded. -/
def Node.depositEntered (n : Node) (a : Acceptance) : Node :=
  (n.depositTold a).enterCharged a (a.unchecked || (n.tallyInUse.countDeposit a.card).isNone) n.serviceRuns

/-- The completion in its order (R63): counted and told, charged and recorded, then the estimate and the press. -/
theorem Node.completeDeposit_eq {n : Node} {a : Acceptance} (ha : n.hatch.acceptance = some a) :
    n.completeDeposit = ((n.depositEntered a).depositEstimate.countPressDeposit).withHatch
        { (n.depositEntered a).depositEstimate.hatch with acceptance := none } := by
  unfold Node.completeDeposit
  rw [ha]
  rfl

/-- Counted, told, charged and recorded, the node differs from the old one at the tally table, the redirect-expect list and the
log, and in what an offer changes. -/
theorem Node.depositEntered_same (n : Node) (a : Acceptance) :
    (((n.withTally (n.tallyCounted a)).withNeighbour
      { n.neighbour with expected := n.neighbour.expected.filter (fun e => e.card != a.card) }).withLog
        (n.logCharged a)).SameButOffers (n.depositEntered a) := by
  have told : (n.withTally (n.tallyCounted a)).SameButOffers (n.depositTold a) :=
    Node.sameButOffers_offerOnly _ _ _
  have hcharge : (n.depositTold a).chargeFor a = n.chargeFor a := by
    simp only [Node.chargeFor, told.settings, told.neighbour]; rfl
  unfold Node.depositEntered
  rw [Node.enterCharged_eq, hcharge, told.neighbour, told.clock, told.settings, told.sounding, told.accounting, told.appendList]
  exact { told with
    neighbour := rfl
    logBut := congrArg (fun l : Log => ({ l with
      accounting := n.log.accounting.deposited (n.chargeFor a)
      appendList := n.log.appendList ++ [n.depositEntry a] } : Log)) told.logBut }

/-- Up to its record a completion offers its TALLY NOTICE alone. -/
theorem Node.depositEntered_offers (n : Node) (a : Acceptance) : Node.OffersUpTo 1 n (n.depositEntered a) :=
  ((Node.offersUpTo_offer (n.withTally (n.tallyCounted a)) .tallyUnit
    (n.tallyNotice a)).congr_left (a := n) rfl rfl).congr (p := n.depositEntered a) rfl rfl

theorem Node.depositEntered_noNew (n : Node) (a : Acceptance) {k : Kind} (hk : .tallyNotice ≠ k) :
    Node.NoNew k n (n.depositEntered a) :=
  Node.noNew_offer (n.withTally (n.tallyCounted a)) (t := n.tallyNotice a) hk .tallyUnit

/-- With room the TALLY NOTICE waits. -/
theorem Node.depositEntered_waits {n : Node} (hs : n.control.phase ≠ .safe)
    (hr : noticedLength n.line.queue < queueCapacity) (a : Acceptance) :
    ∃ e ∈ (n.depositEntered a).line.queue, e.telegram = n.tallyNotice a ∧ e.waitingNotice = false := by
  obtain ⟨-, -, e, he, htel, -, -, hnot⟩ := Node.offer_waits
    (n := n.withTally (n.tallyCounted a)) (t := n.tallyNotice a) hs (by nofun) hr .tallyUnit
  exact ⟨e, he, htel, hnot⟩

/-- The units that a completion changes, and what becomes of them; the rest is as it was but for what an offer changes. -/
theorem Node.completeDeposit_units {n : Node} {a : Acceptance} (ha : n.hatch.acceptance = some a) :
    ∃ x y, y.expected = n.neighbour.expected.filter (fun e => e.card != a.card) ∧
      (((((((n.withTally (n.tallyCounted a)).withNeighbour x).withLog (n.logCharged a)).withSounding n.estimated).withNeighbour
        y).withPress n.pressCounted).withHatch { n.hatch with acceptance := none }).SameButOffers n.completeDeposit := by
  have entered := n.depositEntered_same a
  have hestimated : (n.depositEntered a).estimated = n.estimated := by
    simp only [Node.estimated, entered.sounding, entered.settings, entered.now]; rfl
  obtain ⟨⟨y, hy, hsame⟩, -, -⟩ := (n.depositEntered a).depositEstimate_same
  rw [hestimated] at hsame
  have estimate := ((entered.withSounding n.estimated).withNeighbour y).trans hsame
  have hcounted : ({ (n.depositEntered a).depositEstimate.press with
      deposits := if (n.depositEntered a).depositEstimate.control.settings.pressFitted then
        min 255 ((n.depositEntered a).depositEstimate.press.deposits + 1)
        else (n.depositEntered a).depositEstimate.press.deposits } : Press) = n.pressCounted := by
    rw [estimate.press, estimate.settings]; rfl
  rw [Node.completeDeposit_eq ha, Node.countPressDeposit_eq, hcounted, estimate.hatch]
  exact ⟨_, y, hy.trans (congrArg Neighbour.expected entered.neighbour :), (estimate.withPress _).withHatch _⟩

/-- The deposit in progress completes once, at every unit (R63). -/
theorem Node.completeDeposit_completed {n : Node} {a : Acceptance} (ha : n.hatch.acceptance = some a) :
    n.Completed a n.completeDeposit := by
  obtain ⟨x, y, hy, units⟩ := Node.completeDeposit_units ha
  have entered := n.depositEntered_offers a
  obtain ⟨-, hoffers, hnew⟩ := (n.depositEntered a).depositEstimate_same
  have hline : n.completeDeposit.line.queue = (n.depositEntered a).depositEstimate.line.queue := by
    rw [Node.completeDeposit_eq ha, Node.countPressDeposit_eq]
    rfl
  have hphase : n.completeDeposit.control.phase = (n.depositEntered a).depositEstimate.control.phase := by
    rw [Node.completeDeposit_eq ha, Node.countPressDeposit_eq]
    rfl
  exact {
    now := by simpa using units.now
    phase := by simpa using units.phase
    settings := by simpa using units.settings
    hatch := by simpa using units.hatch
    tally := by simpa using units.tally
    log := by simpa [Node.logCharged] using units.logBut
    sounding := by simpa using units.sounding
    press := by simpa using units.press
    expected := by rw [units.neighbour]; exact hy
    cards := by simpa using units.cards
    store := by simpa using units.store
    clock := by simpa using units.clock
    call := by simpa using units.call
    offers := (entered.trans hoffers).congr hphase hline
    noNew := fun k hk ht => (((n.depositEntered_noNew a ht.symm).trans (hnew k hk))).trans (.of_eq hline)
    notice := fun hs hr => by
      obtain ⟨e, he, htel, hnot⟩ := Node.depositEntered_waits hs hr a
      rw [hline]
      exact ⟨e, hoffers.stays (entered.phase ▸ hs) ((entered.length hs hr).trans hr) e he hnot, htel, hnot⟩ }

end Sys2Proof.Machine
end

section
/-! O19: a closing in DEPOSIT (R62, R63). -/

open Sys2Proof Sys2Proof.Machine

namespace Sys2Proof.Machine

/-! ### A completed deposit seen from before the event -/

/-- The tally table in use hangs on the table, the log and the clock. -/
theorem Node.tallyInUse_congr {n m : Node} (ht : m.tally = n.tally) (hp : m.log.phase = n.log.phase)
    (hh : m.log.held = n.log.held) (hc : m.clock = n.clock) : m.tallyInUse = n.tallyInUse := by
  simp [Node.tallyInUse, ht, hp, hh, hc]

/-- What is told on the way to a completion changes nothing of what it makes. -/
theorem Node.Completed.after_talk {b n m : Node} {a : Acceptance} (h : n.Completed a m) (talk : b.SameButTalk n)
    (hcall : n.call = b.call) (offers : Node.OffersUpTo 0 b n) (noNew : ∀ k, k ≠ .fillNotice → Node.NoNew k b n) :
    b.Completed a m := by
  have hinUse : n.tallyInUse = b.tallyInUse :=
    Node.tallyInUse_congr talk.tally talk.logPhase talk.held talk.clock
  have hcharge : n.chargeFor a = b.chargeFor a := by simp only [Node.chargeFor, talk.settings, talk.expected]
  have hentry : n.depositEntry a = b.depositEntry a := by
    simp only [Node.depositEntry, hcharge, hinUse, talk.settings, talk.expected, talk.hatch, talk.clock, talk.sounding]
  have hnotice : n.tallyNotice a = b.tallyNotice a := by
    simp only [Node.tallyNotice, Node.telegram_congr talk.settings, talk.settings, talk.clock]
  exact {
    now := h.now.trans talk.now
    phase := h.phase.trans talk.phase
    settings := h.settings.trans talk.settings
    hatch := by rw [h.hatch, talk.hatch]
    tally := by rw [h.tally, Node.tallyCounted, hinUse, Node.tallyCounted]
    log := by
      have hlog := h.log
      simp only [Node.logCharged, hcharge, hentry, talk.accounting, talk.appendList] at hlog
      have hkept := congrArg (fun l : Log => { l with
        accounting := (b.logCharged a).accounting, appendList := (b.logCharged a).appendList }) talk.logBut
      exact (congrArg (fun l : Log => { l with harvest := b.log.harvest }) hlog).trans hkept
    sounding := by rw [h.sounding]; simp only [Node.estimated, talk.sounding, talk.settings, talk.now]
    press := by rw [h.press]; simp only [Node.pressCounted, talk.press, talk.settings]
    expected := by rw [h.expected, talk.expected]
    cards := h.cards.trans talk.cards
    store := h.store.trans talk.store
    clock := h.clock.trans talk.clock
    call := h.call.trans hcall
    offers := Nat.zero_add 1 ▸ offers.trans h.offers
    noNew := fun k hk ht => (noNew k hk).trans (h.noNew k hk ht)
    notice := fun hs hr => by
      have hlen := offers.length hs (by omega)
      obtain ⟨e, he, htel, hnot⟩ := h.notice (offers.phase ▸ hs) (by omega)
      exact ⟨e, he, htel.trans hnotice, hnot⟩ }

/-! ### A closing in DEPOSIT (R62) -/

/-- An armed request is due no earlier than its cause asks (R19). -/
theorem Sounding.due_le_of_armedFor {u : Sounding} {due : Moment} {start repeats : Bool} {r : SoundingRequest}
    (h : (u.armedFor due start repeats).request = some r) : due ≤ r.due := by
  unfold Sounding.armedFor at h
  cases hr : u.request with
  | none => simp [hr] at h; simp [← h]
  | some x => simp [hr] at h; simp [← h]

/-- A closing in DEPOSIT completes the deposit and ends the phase (R62). -/
theorem Node.closeByPhase_deposit {n : Node} (h : n.hatch.phase = .deposit) :
    n.closeByPhase = n.completeDeposit.withHatch { n.completeDeposit.hatch with acceptance := none, phase := .idle } := by
  unfold Node.closeByPhase
  rw [h]

/-- The hatch controller at a closing (R62, R64). -/
def Hatch.closedNow (h : Hatch) : Hatch := { h with hatch := .closed, openSince := none, stuck := false }

/-- The hatch controller as a closing in DEPOSIT leaves it (R55, R62). -/
def Hatch.depositClosed (h : Hatch) : Hatch := { h.closedNow with acceptance := none, phase := .idle }

/-- A closing in DEPOSIT: the deposit completes, a paused return goes on and the trigger is evaluated; the sounding that the
completion arms is not due yet. -/
theorem Node.hatchCloses_deposit {n : Node} {a : Acceptance} (ho : n.hatch.hatch = .opened) (hd : n.hatch.phase = .deposit)
    (ha : n.hatch.acceptance = some a) (hu : n.sounding.phase ≠ .stopped) (reading : Option Int) :
    ∃ m p, Node.Completed (n.withHatch n.hatch.closedNow) a m ∧
      p.state = n.press.state ∧ p.claim = n.press.claim ∧ p.retry = n.press.retry ∧ p.deposits = n.pressCounted.deposits ∧
      n.hatchCloses reading = ((m.withHatch n.hatch.depositClosed).withPress p).pressTrigger := by
  let closing := n.withHatch n.hatch.closedNow
  have hstopped : closing.sounding.phase ≠ .stopped := hu
  have talk := closing.noticeCheck_talk
  have hphase : closing.noticeCheck.hatch.phase = .deposit := by rw [talk.hatch]; exact hd
  have hacc : closing.noticeCheck.hatch.acceptance = some a := by rw [talk.hatch]; exact ha
  have completed : closing.Completed a closing.noticeCheck.completeDeposit :=
    (Node.completeDeposit_completed hacc).after_talk talk closing.noticeCheck_call closing.offersUpTo_noticeCheck
      fun k hk => closing.noNew_noticeCheck hk.symm
  have hclose : closing.noticeCheck.closeByPhase = closing.noticeCheck.completeDeposit.withHatch n.hatch.depositClosed := by
    rw [Node.closeByPhase_deposit hphase, completed.hatch]
    rfl
  obtain ⟨p, hresume, hstate, hclaim, hretry, hdeposits⟩ := closing.noticeCheck.closeByPhase.resumePress_spec
  have hpress : closing.noticeCheck.closeByPhase.press = n.pressCounted := by
    rw [hclose]
    exact completed.press
  rw [hpress] at hstate hclaim hretry hdeposits
  have hearly : ∀ r, closing.noticeCheck.closeByPhase.resumePress.sounding.request = some r →
      closing.noticeCheck.closeByPhase.resumePress.now < r.due := by
    rw [hresume, hclose]
    simp only [Node.withPress_sounding, Node.withHatch_sounding, Node.withPress_now, Node.withHatch_now, completed.sounding,
      completed.now, Node.estimated, if_neg hstopped]
    intro r hr
    exact (Nat.lt_add_of_pos_right (by decide)).trans_le (Sounding.due_le_of_armedFor hr)
  refine ⟨_, p, completed, hstate, hclaim, hretry, hdeposits, ?_⟩
  unfold Node.hatchCloses
  rw [if_pos ho]
  calc (closing.noticeCheck.closeByPhase.resumePress.trySounding reading).pressTrigger
      = closing.noticeCheck.closeByPhase.resumePress.pressTrigger := by rw [Node.trySounding_early hearly]
    _ = _ := by rw [hresume, hclose]

end Sys2Proof.Machine

/-- Settles O19: the completion by its units, behind a comparison and before the press goes on and the trigger is evaluated. -/
theorem depositCompletesAtEveryUnit : Obligations.DepositCompletesAtEveryUnit := by
  intro s dt reading a hruns ho hd ha hu c counted expected full charge fill
  obtain ⟨m, p, completed, hstate, hclaim, hretry, hdeposits, hcloses⟩ :=
    Node.hatchCloses_deposit (n := s.node.advance dt) ho hd ha hu reading
  have hexec : exec (.hatchClosed dt reading) s = .next ⟨(s.node.advance dt).hatchCloses reading, s.pending⟩ :=
    State.perform_station hruns.acts dt _
  generalize hreleased : (m.withHatch (s.node.advance dt).hatch.depositClosed).withPress p = released at hcloses
  have hphase : released.control.phase = s.node.control.phase := by subst hreleased; exact completed.phase
  have hrunning : s.node.control.phase ≠ .safe := by rw [hruns.2.1]; nofun
  have offers : Node.OffersUpTo 1 s.node released := by
    subst hreleased
    exact (completed.offers.congr (p := (m.withHatch s.node.hatch.depositClosed).withPress p) rfl rfl).congr_left (a := s.node)
      rfl rfl
  have hroom := offers.room (by decide) hrunning
  obtain ⟨same, hcount, -⟩ := released.pressTrigger_same
  have hhatch : released.pressTrigger.hatch = s.node.hatch.depositClosed := by rw [same.hatch, ← hreleased]; rfl
  have hlog : { m.log with harvest := s.node.log.harvest } = s.node.logCharged a := completed.log
  have hclaims : Node.ClaimsWhenTriggered s.node released.pressTrigger := by
    subst hreleased
    exact Node.claimsWhenTriggered completed.settings hstate hclaim hretry (hphase ▸ hrunning) hroom
  have hnotice (hq : s.node.line.queue.length ≤ 2) :
      ∃ e ∈ released.pressTrigger.line.queue, e.telegram = s.node.tallyNotice a := by
    obtain ⟨e, he, htel, -⟩ := completed.notice hrunning ((Node.OffersUpTo.refl s.node).room (by decide) hrunning hq)
    subst hreleased
    exact ⟨e, Node.pressTrigger_stays (hphase ▸ hrunning) (hroom hq) he, htel⟩
  rw [hcloses] at hexec
  subst hreleased
  refine ⟨_, hexec, by rw [hhatch]; rfl, by rw [hhatch]; rfl, by rw [hhatch]; rfl, by rw [hhatch]; rfl, by rw [hhatch]; rfl,
    same.tally.trans completed.tally, same.accounting.trans (congrArg Log.accounting hlog :),
    same.appendList.trans (congrArg Log.appendList hlog :), (congrArg Neighbour.expected same.neighbour).trans completed.expected,
    ?sounding, hclaims, hcount.trans hdeposits, hnotice, same.cards.trans completed.cards, same.store.trans completed.store,
    same.clock.trans completed.clock, same.held.trans (congrArg Log.held hlog :)⟩
  case sounding => exact (same.sounding.trans completed.sounding).trans (if_neg hu)
end

section
/-! What a lift makes of the fill, the log and the call, whatever the phase it finds (R17, R170, R171). -/

open Sys2Proof Sys2Proof.Machine

namespace Sys2Proof.Machine

/-! ### The call unit at a lift (R171) -/

/-- A change of the call state is passed on, and is talk. -/
theorem Node.setCall_talk (n : Node) (c : Call) : n.SameButTalk (n.setCall c) :=
  (n.sameButTalk_withCall c).trans (n.withCall c).noticeCheck_talk

/-- The call is the one set, whatever is told of it. -/
theorem Node.setCall_call (n : Node) (c : Call) : (n.setCall c).call = c := (n.withCall c).noticeCheck_call

/-- A change of the call state brings no telegram but a notice. -/
theorem Node.offersUpTo_setCall (n : Node) (c : Call) : Node.OffersUpTo 0 n (n.setCall c) :=
  (n.withCall c).offersUpTo_noticeCheck.congr_left rfl rfl

/-- The CALL CLOSED of a cause (R171). -/
def Node.callClosed (n : Node) (cause : Nat) : Telegram :=
  n.telegram .callClosed 250 [BitVec.ofNat 8 (n.call.tag.getD 0), BitVec.ofNat 8 cause]

/-- With no call open there is nothing to close. -/
theorem Node.closeCall_of_none {n : Node} (h : n.call.state = .none) (cause : Nat) : n.closeCall cause = n := if_pos h

/-- An open call is closed with a CALL CLOSED (R171). -/
theorem Node.closeCall_of_open {n : Node} (h : n.call.state ≠ .none) (cause : Nat) :
    n.closeCall cause = (n.offerOnly .callUnit (n.callClosed cause)).setCall n.call.ended := by
  have hcall : (n.offerOnly .callUnit (n.callClosed cause)).call = n.call :=
    (n.sameButOffers_offerOnly .callUnit (n.callClosed cause)).call
  unfold Node.closeCall
  rw [if_neg h]
  exact congrArg (fun c : Call => (n.offerOnly .callUnit (n.callClosed cause)).setCall c.ended) hcall

/-- The closing of a call is talk. -/
theorem Node.closeCall_talk (n : Node) (cause : Nat) : n.SameButTalk (n.closeCall cause) := by
  by_cases h : n.call.state = .none
  · rw [Node.closeCall_of_none h]
    exact .refl n
  · rw [Node.closeCall_of_open h]
    exact ((n.sameButOffers_offerOnly _ _).talk (n.offer_polarity _ _)).trans (Node.setCall_talk _ _)

/-- The call after its closing (R160, R167, R171). -/
theorem Node.closeCall_call (n : Node) (cause : Nat) :
    (n.closeCall cause).call = if n.call.state = .none then n.call else n.call.ended := by
  by_cases h : n.call.state = .none
  · rw [Node.closeCall_of_none h, if_pos h]
  · rw [Node.closeCall_of_open h, if_neg h, Node.setCall_call]

/-- The closing of a call offers its CALL CLOSED alone. -/
theorem Node.offersUpTo_closeCall (n : Node) (cause : Nat) : Node.OffersUpTo 1 n (n.closeCall cause) := by
  by_cases h : n.call.state = .none
  · rw [Node.closeCall_of_none h]
    exact (Node.OffersUpTo.refl n).mono (Nat.zero_le 1)
  · rw [Node.closeCall_of_open h]
    exact (n.offersUpTo_offer .callUnit (n.callClosed cause)).trans (Node.offersUpTo_setCall _ _)

/-- With room the CALL CLOSED of an open call waits (R171). -/
theorem Node.closeCall_waits {n : Node} (h : n.call.state ≠ .none) (hs : n.control.phase ≠ .safe)
    (hr : noticedLength n.line.queue < queueCapacity) (cause : Nat) :
    ∃ e ∈ (n.closeCall cause).line.queue, e.cls = 1 ∧ e.telegram = n.callClosed cause := by
  have hoffer := n.offersUpTo_offer .callUnit (n.callClosed cause)
  obtain ⟨-, -, e, he, htel, hcls, -, hnot⟩ := Node.offer_waits (t := n.callClosed cause) hs (by nofun) hr .callUnit
  rw [Node.closeCall_of_open h]
  exact ⟨e, (Node.offersUpTo_setCall _ _).stays (hoffer.phase ▸ hs) ((hoffer.length hs hr).trans hr) e he hnot, hcls, htel⟩

/-- A record's entry hangs on the clock and the configuration. -/
theorem Node.entryOf_congr {n m : Node} (hs : m.control.settings = n.control.settings) (hc : m.clock = n.clock)
    (body : RecordBody) (fill : Option Nat) : m.entryOf body fill = n.entryOf body fill := by
  simp only [Node.entryOf, hs, hc]

/-- What is told takes no place of the event list. -/
theorem Node.SameButTalk.eventsHeld {n m : Node} (h : n.SameButTalk m) : m.log.eventsHeld = n.log.eventsHeld :=
  (congrArg Log.eventsHeld h.logBut :)

/-! ### What a lift makes of the fill and the call (R17, R49, R170, R171) -/

/-- The sounding unit at a lift: emptied, and a sounding in flight abandoned, but in STOPPED (R17, R22, R24). -/
def Node.emptiedSounding (n : Node) : Sounding :=
  if n.sounding.phase = .stopped then n.sounding
  else ({ n.sounding with fill := none, full := false } : Sounding).abandonedAt n.now

/-- The emptying record of a lift: with the crew card of the running service period, or unannounced (R170). -/
def Node.emptyingEntry (n : Node) : LogEntry :=
  n.entryOf (match n.hatch.service with | some p => .emptying p.crew | none => .unannouncedEmpty) none

/-- The cause of a CALL CLOSED (R171). -/
def Node.emptyingCause (n : Node) : Nat := if n.hatch.service.isSome then 0 else 1

/-- A lift changes the sounding unit, and tells of it; the call and the other telegrams are as they were. -/
theorem Node.liftFill_spec (n : Node) :
    (n.withSounding n.emptiedSounding).SameButTalk n.liftFill ∧ n.liftFill.call = n.call ∧
      Node.OffersUpTo 0 n n.liftFill ∧ ∀ k, k ≠ .fillNotice → Node.NoNew k n n.liftFill := by
  by_cases h : n.sounding.phase = .stopped
  · have hid : n.liftFill = n := if_pos h
    rw [hid, Node.emptiedSounding, if_pos h]
    exact ⟨.refl n, rfl, .refl n, fun _ _ => .of_eq rfl⟩
  · rw [Node.liftFill_eq h, Node.emptiedSounding, if_neg h]
    exact ⟨Node.noticeCheck_talk _, Node.noticeCheck_call _, (Node.offersUpTo_noticeCheck _).congr_left rfl rfl,
      fun k hk => (Node.NoNew.of_eq rfl).trans (Node.noNew_noticeCheck _ hk.symm)⟩

/-- The call unit at a lift records the emptying and closes the call. -/
theorem Node.liftCall_eq (n : Node) : n.liftCall =
    (n.requestRecord (match n.hatch.service with | some p => .emptying p.crew | none => .unannouncedEmpty) none).closeCall
      n.emptyingCause := by
  unfold Node.liftCall Node.emptyingCause
  cases n.hatch.service <;> rfl

/-- What a lift makes of `n` once the hatch controller has acted: the sounding unit emptied, the emptying recorded, the call closed
and the press told. -/
structure Node.EmptiedTo (n m : Node) : Prop where
  hatch      : m.hatch = n.hatch
  tally      : m.tally = n.tally
  cards      : m.cards = n.cards
  store      : m.store = n.store
  clock      : m.clock = n.clock
  expected   : m.neighbour.expected = n.neighbour.expected
  deposits   : m.press.deposits = n.press.deposits
  sounding   : m.sounding = n.emptiedSounding
  held       : m.log.held = n.log.held
  accounting : m.log.accounting = n.log.accounting
  recorded   : n.log.phase = .opened → n.log.eventsHeld < 3 → m.log.appendList = n.log.appendList ++ [n.emptyingEntry]
  call       : m.call = if n.call.state = .none then n.call else n.call.ended
  stays      : n.control.phase ≠ .safe → noticedLength n.line.queue < queueCapacity →
    ∀ x ∈ n.line.queue, x.waitingNotice = false → x ∈ m.line.queue
  closed     : n.call.state ≠ .none → n.control.phase ≠ .safe → noticedLength n.line.queue < queueCapacity →
    ∃ e ∈ m.line.queue, e.cls = 1 ∧ e.telegram = n.callClosed n.emptyingCause
  quiet      : n.call.state = .none → Node.NoNew .callClosed n m

/-- Emptying, recording, closing and telling the press, each by its own rule. -/
theorem Node.emptiedTo (n : Node) : n.EmptiedTo n.liftFill.liftCall.interruptPress := by
  obtain ⟨talk, hcall, hoffers, hnew⟩ := n.liftFill_spec
  generalize n.liftFill = f at talk hcall hoffers hnew ⊢
  obtain ⟨l, hrequest, hheld, hacc, happ⟩ := f.requestRecord_spec
    (match f.hatch.service with | some p => .emptying p.crew | none => .unannouncedEmpty) none
  have hcause : f.emptyingCause = n.emptyingCause := by rw [Node.emptyingCause, talk.hatch]; rfl
  have hlift : f.liftCall = (f.withLog l).closeCall n.emptyingCause := by rw [Node.liftCall_eq, hrequest, hcause]
  have closing := (f.withLog l).closeCall_talk n.emptyingCause
  have closingOffers := ((f.withLog l).offersUpTo_closeCall n.emptyingCause).congr_left (a := f) rfl rfl
  obtain ⟨p, hpress, hdeposits⟩ := f.liftCall.interruptPress_spec
  rw [hpress, hlift]
  rw [hlift] at hdeposits
  have hentry : f.emptyingEntry = n.emptyingEntry := by
    rw [Node.emptyingEntry, Node.entryOf_congr talk.settings talk.clock, talk.hatch]
    rfl
  have hclosed : (f.withLog l).callClosed n.emptyingCause = n.callClosed n.emptyingCause := by
    simp only [Node.callClosed, Node.withLog_call, hcall]
    exact Node.telegram_congr talk.settings _ _ _
  have hroom (hs : n.control.phase ≠ .safe) (hr : noticedLength n.line.queue < queueCapacity) :
      noticedLength f.line.queue < queueCapacity := (hoffers.length hs (Nat.le_of_lt hr)).trans_lt hr
  exact {
    hatch := closing.hatch.trans talk.hatch
    tally := closing.tally.trans talk.tally
    cards := closing.cards.trans talk.cards
    store := closing.store.trans talk.store
    clock := closing.clock.trans talk.clock
    expected := closing.expected.trans talk.expected
    deposits := hdeposits.trans ((congrArg Press.deposits closing.press).trans (congrArg Press.deposits talk.press))
    sounding := closing.sounding.trans talk.sounding
    held := closing.held.trans (hheld.trans talk.held)
    accounting := closing.accounting.trans (hacc.trans talk.accounting)
    recorded := fun ho hroom => by
      rw [← hentry]
      have hkept : f.log.appendList = n.log.appendList := talk.appendList
      exact (closing.appendList.trans (happ (talk.logPhase.trans ho) (talk.eventsHeld.trans_lt hroom))).trans
        (congrArg (· ++ [f.emptyingEntry]) hkept)
    call := ((f.withLog l).closeCall_call n.emptyingCause).trans (by rw [Node.withLog_call, hcall])
    stays := fun hs hr x hx hn =>
      closingOffers.stays (hoffers.phase ▸ hs) (hroom hs hr) x (hoffers.stays hs (Nat.le_of_lt hr) x hx hn) hn
    closed := fun hopen hs hr => by
      rw [← hclosed]
      exact Node.closeCall_waits (n := f.withLog l) (hcall ▸ hopen) (hoffers.phase ▸ hs) (hroom hs hr) n.emptyingCause
    quiet := fun hnone => by
      rw [Node.closeCall_of_none (n := f.withLog l) (hcall ▸ hnone)]
      exact (hnew .callClosed nofun).trans (.of_eq rfl) }

end Sys2Proof.Machine
end

section
/-! O21: a lift by phase (R49), and a seat (R17). -/

open Sys2Proof Sys2Proof.Machine

namespace Sys2Proof.Machine

/-! ### A lift by phase (R49) -/

/-- A change of the hatch controller offers nothing. -/
theorem Node.OffersUpTo.withHatch {k : Nat} {n m : Node} (h : Node.OffersUpTo k n m) (x : Hatch) :
    Node.OffersUpTo k n (m.withHatch x) :=
  h.congr rfl rfl

/-- What a lift does in `n` by the phase it finds, before the fill and the call hear of it: a release ends, a deposit completes and
goes on as a forced opening, as a crew opening does; the units that the emptying asks are as they were. -/
structure Node.LiftActs (n m : Node) : Prop where
  lift      : m.hatch.lift = n.hatch.lift
  service   : m.hatch.service = n.hatch.service
  phase     : m.hatch.phase = (match n.hatch.phase with
    | .window | .deferred | .idle => .idle
    | .deposit | .crewOpening | .forcedOpening => .forcedOpening)
  now       : m.now = n.now
  settings  : m.control.settings = n.control.settings
  cards     : m.cards = n.cards
  store     : m.store = n.store
  clock     : m.clock = n.clock
  call      : m.call = n.call
  held      : m.log.held = n.log.held
  logPhase  : m.log.phase = n.log.phase
  events    : m.log.eventsHeld = n.log.eventsHeld
  stopped   : n.sounding.phase = .stopped → m.sounding = n.sounding
  offers    : Node.OffersUpTo 1 n m
  quiet     : Node.NoNew .callClosed n m
  window    : n.hatch.phase = .window → m.hatch.acceptance = none ∧ m.hatch.window = none ∧ m.hatch.lock = .off
  deferred  : n.hatch.phase = .deferred →
    m.hatch.acceptance = none ∧ m.hatch.panel = some ⟨.refusal 31, some (n.now + 4000000)⟩
  hatchOnly : n.hatch.phase ≠ .deposit → ∃ g, m = n.withHatch g
  completed : ∀ a, n.hatch.phase = .deposit → n.hatch.acceptance = some a →
    ∃ d, n.Completed a d ∧ m = d.withHatch { n.hatch with acceptance := none, phase := .forcedOpening }

/-- A lift in DEPOSIT completes the deposit, and the opening goes on as a forced one (R49). -/
theorem Node.liftByPhase_deposit {n : Node} (h : n.hatch.phase = .deposit) : n.liftByPhase =
    n.completeDeposit.withHatch { n.completeDeposit.hatch with acceptance := none, phase := .forcedOpening } := by
  unfold Node.liftByPhase
  rw [h]

/-- The hatch controller after a lift in another phase (R49, R59). -/
def Hatch.liftedAt (h : Hatch) (now : Moment) : Hatch :=
  match h.phase with
  | .window => h.endRelease
  | .deferred => h.endRelease.show now (.refusal 31)
  | .crewOpening => { h with acceptance := none, phase := .forcedOpening }
  | .deposit | .forcedOpening | .idle => h

/-- In every other phase a lift changes the hatch controller alone. -/
theorem Node.liftByPhase_hatch {n : Node} (h : n.hatch.phase ≠ .deposit) :
    n.liftByPhase = n.withHatch (n.hatch.liftedAt n.now) := by
  unfold Node.liftByPhase Hatch.liftedAt
  cases hp : n.hatch.phase
  case deposit => exact absurd hp h
  all_goals rfl

/-- What that leaves: a release ended, a crew opening forced, and everything else as it was. -/
theorem Node.liftActs_hatch {n : Node} (hd : n.hatch.phase ≠ .deposit) :
    n.LiftActs (n.withHatch (n.hatch.liftedAt n.now)) := by
  obtain ⟨p, b, hend⟩ := n.hatch.endRelease_spec
  exact {
    lift := by simp only [Node.withHatch_hatch, Hatch.liftedAt]; split <;> simp [hend, Hatch.show]
    service := by simp only [Node.withHatch_hatch, Hatch.liftedAt]; split <;> simp [hend, Hatch.show]
    phase := by
      simp only [Node.withHatch_hatch, Hatch.liftedAt]
      split <;> simp_all [Hatch.show]
    now := rfl, settings := rfl, cards := rfl, store := rfl, clock := rfl, call := rfl, held := rfl, logPhase := rfl
    events := rfl, stopped := fun _ => rfl
    offers := ((Node.OffersUpTo.refl n).withHatch _).mono (Nat.zero_le 1)
    quiet := .of_eq rfl
    window := fun hw => by simp [Hatch.liftedAt, hw, hend]
    deferred := fun hf => by simp [Hatch.liftedAt, hf, hend, Hatch.show, indicationLength, sec]
    hatchOnly := fun _ => ⟨_, rfl⟩
    completed := fun _ h => absurd h hd }

/-- A completed deposit takes no place of the event list: its record is no event. -/
theorem Node.Completed.eventsHeld {n m : Node} {a : Acceptance} (h : n.Completed a m) :
    m.log.eventsHeld = n.log.eventsHeld := by
  have hlog : m.log.eventsHeld = (n.logCharged a).eventsHeld := (congrArg Log.eventsHeld h.log :)
  rw [hlog]
  simp [Log.eventsHeld, Node.logCharged, Node.depositEntry, LogEntry.isEvent, LogEntry.isDeposit]

/-- A lift in DEPOSIT: with an acceptance held a deposit completes. -/
theorem Node.liftActs_deposit {n : Node} (hd : n.hatch.phase = .deposit) :
    n.LiftActs (n.completeDeposit.withHatch { n.completeDeposit.hatch with acceptance := none, phase := .forcedOpening }) := by
  cases ha : n.hatch.acceptance with
  | none =>
    have hnone : n.completeDeposit = n := by
      unfold Node.completeDeposit
      rw [ha]
    rw [hnone]
    exact {
      lift := rfl, service := rfl, phase := by rw [hd]; rfl, now := rfl, settings := rfl, cards := rfl, store := rfl,
      clock := rfl, call := rfl, held := rfl, logPhase := rfl, events := rfl, stopped := fun _ => rfl
      offers := ((Node.OffersUpTo.refl n).withHatch _).mono (Nat.zero_le 1)
      quiet := .of_eq rfl
      window := by simp [hd]
      deferred := by simp [hd]
      hatchOnly := by simp [hd]
      completed := by simp [ha] }
  | some a =>
    have completed := Node.completeDeposit_completed ha
    have hlog := completed.log
    generalize n.completeDeposit = d at completed hlog ⊢
    have hhatch : { d.hatch with acceptance := none, phase := .forcedOpening } =
        { n.hatch with acceptance := none, phase := .forcedOpening } := by
      rw [completed.hatch]
    rw [hhatch]
    exact {
      lift := rfl, service := rfl, phase := by rw [hd]; rfl, now := completed.now, settings := completed.settings
      cards := completed.cards, store := completed.store, clock := completed.clock, call := completed.call
      held := (congrArg Log.held hlog :)
      logPhase := (congrArg Log.phase hlog :)
      events := completed.eventsHeld
      stopped := fun hu => completed.sounding.trans (if_pos hu)
      offers := completed.offers.withHatch _
      quiet := (completed.noNew .callClosed nofun nofun).trans (.of_eq rfl)
      window := by simp [hd]
      deferred := by simp [hd]
      hatchOnly := by simp [hd]
      completed := fun b _ hb => by
        obtain rfl := Option.some.inj (ha.symm.trans hb)
        exact ⟨d, completed, rfl⟩ }

/-- What a lift does by phase (R49). -/
theorem Node.liftByPhase_acts (n : Node) : n.LiftActs n.liftByPhase := by
  by_cases hd : n.hatch.phase = .deposit
  · rw [Node.liftByPhase_deposit hd]
    exact Node.liftActs_deposit hd
  · rw [Node.liftByPhase_hatch hd]
    exact Node.liftActs_hatch hd

/-- An armed sounding unit is in STOPPED when it was before. -/
theorem Sounding.armedFor_stopped_iff (u : Sounding) (due : Moment) (start repeats : Bool) :
    (u.armedFor due start repeats).phase = .stopped ↔ u.phase = .stopped := by
  unfold Sounding.armedFor
  cases u.phase <;> simp

/-- A deposit that a lift completes has armed a sounding, which the emptying keeps (R16, R17, R22). -/
theorem Node.LiftActs.emptiedSounding_deposit {n m : Node} {a : Acceptance} (h : n.LiftActs m) (hu : n.sounding.phase ≠ .stopped)
    (hd : n.hatch.phase = .deposit) (ha : n.hatch.acceptance = some a) :
    m.emptiedSounding = (({ n.sounding with fill := none, full := false } : Sounding).armedFor (n.now + 3000000) false
      false).abandonedAt n.now := by
  obtain ⟨d, completed, rfl⟩ := h.completed a hd ha
  have hphase : d.sounding.phase ≠ .stopped := by
    rw [completed.sounding, Node.estimated, if_neg hu, Ne, Sounding.armedFor_stopped_iff]
    exact hu
  have hsounding : (d.withHatch { n.hatch with acceptance := none, phase := .forcedOpening }).sounding = d.sounding := rfl
  rw [Node.emptiedSounding, hsounding, if_neg hphase, h.now, completed.sounding, Node.estimated, if_neg hu]
  rfl

/-- Without a deposit the emptying finds the sounding unit as it was (R17, R22). -/
theorem Node.LiftActs.emptiedSounding_undeposited {n m : Node} (h : n.LiftActs m) (hu : n.sounding.phase ≠ .stopped)
    (hd : n.hatch.phase ≠ .deposit) :
    m.emptiedSounding = ({ n.sounding with fill := none, full := false } : Sounding).abandonedAt n.now := by
  obtain ⟨g, rfl⟩ := h.hatchOnly hd
  exact if_neg hu

/-- In STOPPED the sounding unit keeps its state (R24). -/
theorem Node.LiftActs.emptiedSounding_stopped {n m : Node} (h : n.LiftActs m) (hu : n.sounding.phase = .stopped) :
    m.emptiedSounding = n.sounding := by
  rw [Node.emptiedSounding, h.stopped hu, if_pos hu]

/-- The emptying record and the CALL CLOSED are those of the lift. -/
theorem Node.LiftActs.emptyingEntry {n m : Node} (h : n.LiftActs m) : m.emptyingEntry = n.emptyingEntry := by
  rw [Node.emptyingEntry, Node.entryOf_congr h.settings h.clock, h.service]
  rfl

theorem Node.LiftActs.callClosed {n m : Node} (h : n.LiftActs m) :
    m.callClosed m.emptyingCause = n.callClosed n.emptyingCause := by
  rw [Node.callClosed, Node.telegram_congr h.settings, h.call, Node.emptyingCause, h.service]
  rfl

/-! ### A lift of a seated insert -/

/-- A lift by phase, then the emptying; the trigger finds the insert lifted. -/
theorem Node.lifts_spec {n : Node} (h : n.hatch.lift = .seated) :
    ∃ m, (n.withHatch { n.hatch with lift := .lifted }).LiftActs m ∧ m.EmptiedTo n.lifts := by
  let lifting := n.withHatch { n.hatch with lift := .lifted }
  have acts := lifting.liftByPhase_acts
  have emptied := lifting.liftByPhase.emptiedTo
  have hlifted : lifting.liftByPhase.liftFill.liftCall.interruptPress.hatch.lift = .lifted := by
    rw [emptied.hatch, acts.lift]
    rfl
  have hlifts : n.lifts = lifting.liftByPhase.liftFill.liftCall.interruptPress := by
    unfold Node.lifts
    rw [if_pos h]
    exact Node.pressTrigger_of_busy (.inr (.inr (by rw [hlifted]; nofun)))
  rw [hlifts]
  exact ⟨_, acts, emptied⟩

/-- The sounding unit after a seat (R17): a sounding armed 20 s later, but in STOPPED. -/
def Node.seatedSounding (n : Node) : Sounding :=
  if n.sounding.phase = .stopped then n.sounding else n.sounding.armedFor (n.now + 20000000) false false

/-- In STOPPED no request is tried (R24). -/
theorem Node.trySounding_stopped {n : Node} (h : n.sounding.phase = .stopped) (reading : Option Int) :
    n.trySounding reading = n := by
  unfold Node.trySounding
  split
  · rfl
  · exact if_neg (by simp [h])

/-- A seat arms a sounding that is not due yet, a paused return goes on, and the trigger is evaluated (R49). -/
theorem Node.seats_spec {n : Node} (h : n.hatch.lift = .lifted) (reading : Option Int) :
    ∃ p, n.seats reading =
      (((n.withHatch { n.hatch with lift := .seated }).withSounding n.seatedSounding).withPress p).pressTrigger := by
  let seated := (n.withHatch { n.hatch with lift := .seated }).withSounding n.seatedSounding
  have harm : (n.withHatch { n.hatch with lift := .seated }).armSounding seatSoundingDelay = seated := by
    refine congrArg (n.withHatch { n.hatch with lift := .seated }).withSounding ?_
    unfold Node.seatedSounding
    split
    next hu => exact if_pos hu
    next hu => exact Sounding.arm_eq_armedFor hu (Nat.lt_add_of_pos_right (by decide)) false false
  obtain ⟨p, hresume, -⟩ := seated.resumePress_spec
  have htry : seated.resumePress.trySounding reading = seated.resumePress := by
    rw [hresume]
    by_cases hu : n.sounding.phase = .stopped
    · exact Node.trySounding_stopped ((congrArg Sounding.phase (if_pos hu : n.seatedSounding = n.sounding)).trans hu) reading
    · refine Node.trySounding_early (fun r hr => ?_) reading
      have hr : n.seatedSounding.request = some r := hr
      rw [Node.seatedSounding, if_neg hu] at hr
      exact (Nat.lt_add_of_pos_right (by decide)).trans_le (Sounding.due_le_of_armedFor hr)
  unfold Node.seats
  rw [if_pos h, harm]
  exact ⟨p, (congrArg Node.pressTrigger htry).trans (congrArg Node.pressTrigger hresume)⟩

end Sys2Proof.Machine

/-- Settles O21: a lift by phase, then the emptying; a seat arms a sounding. -/
theorem liftEmptiesAndSeatRearms : Obligations.LiftEmptiesAndSeatRearms := by
  intro s dt reading hacts now' h c sounds emptied cause emptying
  refine ⟨fun hseated => ?lift, fun hlifted => ?seat⟩
  case lift =>
    have hexec : exec (.lift dt) s = .next ⟨(s.node.advance dt).lifts, s.pending⟩ := State.perform_station hacts dt _
    obtain ⟨m, acts, empties⟩ := Node.lifts_spec (n := s.node.advance dt) hseated
    generalize (s.node.advance dt).lifts = n at hexec empties
    have hsafe (hr : s.node.control.phase = .running) : s.node.control.phase ≠ .safe := by rw [hr]; nofun
    have hcall : m.call = s.node.call := acts.call
    have hempty : m.emptyingEntry = emptying := acts.emptyingEntry
    have hrecorded (ho : s.node.log.phase = .opened) (hr : s.node.log.eventsHeld < 3) :
        n.log.appendList = m.log.appendList ++ [emptying] :=
      hempty ▸ empties.recorded (acts.logPhase.trans ho) (acts.events.trans_lt hr)
    have hroom (hr : s.node.control.phase = .running) (hq : s.node.line.queue.length ≤ 2) :
        noticedLength m.line.queue < queueCapacity := acts.offers.room (by decide) (hsafe hr) hq
    refine ⟨n, hexec, by rw [empties.hatch, acts.lift]; rfl, by rw [empties.hatch, acts.phase]; rfl, ?window, ?deferred,
      fun hd => ?undeposited, fun a hd ha => ?deposited, fun hu hd => ?sounding, fun hu hd hsome => ?armed, fun hu => ?stopped,
      ?call, fun hopen hr hq => ?closed, fun hnone => ?quiet, empties.held.trans acts.held, empties.cards.trans acts.cards,
      empties.store.trans acts.store, empties.clock.trans acts.clock⟩
    case window => rw [empties.hatch]; exact acts.window
    case deferred => rw [empties.hatch]; exact acts.deferred
    case undeposited =>
      obtain ⟨g, rfl⟩ := acts.hatchOnly hd
      exact ⟨empties.tally, empties.accounting, empties.deposits, empties.expected, hrecorded⟩
    case deposited =>
      obtain ⟨d, completed, rfl⟩ := acts.completed a hd ha
      have hlog : { d.log with harvest := s.node.log.harvest } = s.node.logCharged a := completed.log
      refine ⟨by rw [empties.hatch]; rfl, empties.tally.trans completed.tally,
        empties.accounting.trans (congrArg Log.accounting hlog :), fun ho hr => ?_, empties.expected.trans completed.expected,
        empties.deposits.trans (congrArg Press.deposits completed.press), fun hr hq => ?_⟩
      · have happended : d.log.appendList = s.node.log.appendList ++ [s.node.depositEntry a] := (congrArg Log.appendList hlog :)
        refine (hrecorded ho hr).trans ((congrArg (· ++ [emptying]) happended).trans ?_)
        rw [List.append_assoc]
        rfl
      · obtain ⟨e, he, htel, hnot⟩ :=
          completed.notice (hsafe hr) ((Node.OffersUpTo.refl s.node).room (by decide) (hsafe hr) hq)
        exact ⟨e, empties.stays (acts.offers.phase ▸ hsafe hr) (hroom hr hq) e he hnot, htel⟩
    case sounding => exact empties.sounding.trans (acts.emptiedSounding_undeposited hu hd)
    case armed =>
      obtain ⟨a, ha⟩ := Option.isSome_iff_exists.mp hsome
      exact empties.sounding.trans (acts.emptiedSounding_deposit hu hd ha)
    case stopped => exact empties.sounding.trans (acts.emptiedSounding_stopped (not_not.mp hu))
    case call => rw [empties.call, hcall]; rfl
    case closed =>
      obtain ⟨e, he, hcls, htel⟩ := empties.closed (hcall ▸ hopen) (acts.offers.phase ▸ hsafe hr) (hroom hr hq)
      exact ⟨e, he, hcls, htel.trans acts.callClosed⟩
    case quiet =>
      intro e he hk
      exact acts.quiet e (empties.quiet (hcall ▸ hnone) e he hk) hk
  case seat =>
    have hexec : exec (.seat dt reading) s = .next ⟨(s.node.advance dt).seats reading, s.pending⟩ :=
      State.perform_station hacts dt _
    obtain ⟨p, hseats⟩ := Node.seats_spec (n := s.node.advance dt) hlifted reading
    rw [hseats] at hexec
    obtain ⟨same, -, -⟩ := ((((s.node.advance dt).withHatch { h with lift := .seated }).withSounding
      (s.node.advance dt).seatedSounding).withPress p).pressTrigger_same
    exact ⟨_, hexec, same.hatch, fun hu => same.sounding.trans (if_neg hu), fun hu => same.sounding.trans (if_pos (not_not.mp hu)),
      same.appendList, same.cards, same.store, same.tally⟩
end

section
/-! Raising a call (R160 to R162), a change of the station state (R151), and the one notice that follows several changes
(R150). -/

open Sys2Proof Sys2Proof.Machine

namespace Sys2Proof.Machine

/-! ### Raising a call (R160 to R162) -/

/-- The new call (R160). -/
def Call.begun (c : Call) : Call :=
  { c with
    state := .pending, tag := some (nextTag c.lastTag), lastTag := nextTag c.lastTag, sends := none, resend := none,
    rest := none, round := none, lead := none }

/-- The call as it is out (R162). -/
def Call.sentAt (c : Call) (now : Moment) : Call :=
  { c with state := .awaiting, sends := some 1, resend := some (now + resendLength) }

/-- Raising is due in `n` (R161). -/
def Node.raising (n : Node) : Prop :=
  n.call.stopped = false ∧ n.call.state = .none ∧ n.hatch.station = .ready ∧ n.fillToCall = true

theorem Node.raiseCall_of {n : Node} (h : n.raising) : n.raiseCall = n.newCall none := if_pos h

theorem Node.raiseCall_of_not {n : Node} (h : ¬ n.raising) : n.raiseCall = n := if_neg h

/-- A new own call goes out at once where the polarity is known, and waits in PENDING else (R162). -/
theorem Node.newCall_eq (n : Node) :
    let pending := n.setCall n.call.begun
    n.newCall none = if n.mayTransmit then
      (pending.offerOnly .callUnit (pending.callTelegram (nextTag n.call.lastTag) 1)).setCall (n.call.begun.sentAt n.now)
      else pending := by
  intro pending
  have talk := n.setCall_talk n.call.begun
  have hcall : pending.call = n.call.begun := n.setCall_call _
  have hnow : pending.now = n.now := talk.now
  have hmay : pending.mayTransmit = n.mayTransmit := congrArg (· != Polarity.undetected) talk.polarity
  have hoffer (t : Telegram) := pending.sameButOffers_offerOnly .callUnit t
  have hnew : n.newCall none = pending.callOffer := rfl
  have hstate : n.call.begun.state = .pending := rfl
  rw [hnew]
  unfold Node.callOffer
  simp only [(hoffer _).call, (hoffer _).now, hcall, hnow, hmay, hstate, true_and]
  rfl

/-- The call's telegram is no notice. -/
theorem Node.callTelegram_kind (n : Node) (tag sends : Nat) : (n.callTelegram tag sends).kind ≠ .fillNotice := by
  unfold Node.callTelegram
  cases n.call.lead <;> nofun

/-- What raising does: it tells of the call, with one offer, and the call is as the polarity lets it be (R162). -/
theorem Node.raiseCall_spec (n : Node) :
    n.SameButTalk n.raiseCall ∧ Node.OffersUpTo 1 n n.raiseCall ∧
      (n.raising → n.raiseCall.call = if n.mayTransmit then n.call.begun.sentAt n.now else n.call.begun) := by
  by_cases h : n.raising
  · have pending := n.setCall_talk n.call.begun
    have offers := n.offersUpTo_setCall n.call.begun
    rw [Node.raiseCall_of h, n.newCall_eq]
    split
    · have hoffer := (n.setCall n.call.begun).offersUpTo_offer .callUnit
        ((n.setCall n.call.begun).callTelegram (nextTag n.call.lastTag) 1)
      exact ⟨(pending.trans ((Node.sameButOffers_offerOnly _ _ _).talk (Node.offer_polarity _ _ _))).trans (Node.setCall_talk _ _),
        (offers.trans hoffer).trans (Node.offersUpTo_setCall _ _), fun _ => Node.setCall_call _ _⟩
    · exact ⟨pending, offers.mono (Nat.zero_le 1), fun _ => Node.setCall_call _ _⟩
  · rw [Node.raiseCall_of_not h]
    exact ⟨.refl n, (Node.OffersUpTo.refl n).mono (Nat.zero_le 1), fun hr => absurd hr h⟩

/-- Raising twice is raising once: a raised call is open. -/
theorem Node.raiseCall_raiseCall (n : Node) : n.raiseCall.raiseCall = n.raiseCall := by
  by_cases h : n.raising
  · refine Node.raiseCall_of_not fun hagain => ?_
    have hnone := hagain.2.1
    rw [n.raiseCall_spec.2.2 h] at hnone
    cases hm : n.mayTransmit <;> simp [hm, Call.begun, Call.sentAt] at hnone
  · rw [Node.raiseCall_of_not h, Node.raiseCall_of_not h]

/-! ### A station that leaves STARTING (R45, R151) -/

/-- A change of the station state is talk. -/
theorem Node.noticeStation_talk (n : Node) : n.SameButTalk n.noticeStation := by
  unfold Node.noticeStation
  split
  · exact { (n.withNeighbour { n.neighbour with phase := .active }).offerNotice_talk with }
  · exact n.noticeCheck_talk

theorem Node.noticeStation_call (n : Node) : n.noticeStation.call = n.call := by
  unfold Node.noticeStation
  split
  · exact (n.withNeighbour { n.neighbour with phase := .active }).offerNotice_same.call
  · exact n.noticeCheck_call

theorem Node.offersUpTo_noticeStation (n : Node) : Node.OffersUpTo 0 n n.noticeStation := by
  unfold Node.noticeStation
  split
  · exact (n.withNeighbour { n.neighbour with phase := .active }).offersUpTo_offerNotice.congr_left rfl rfl
  · exact n.offersUpTo_noticeCheck

/-- A station out of STARTING makes a SILENT neighbour unit ACTIVE (R151). -/
theorem Node.noticeStation_active {n : Node} (hp : n.neighbour.phase = .silent) (hst : n.hatch.station ≠ .starting)
    (hsafe : n.hatch.station ≠ .safe) : n.noticeStation.neighbour.phase = .active := by
  unfold Node.noticeStation
  rw [if_pos ⟨hp, hst, hsafe⟩, Node.offerNotice_neighbour]
  rfl

/-- In ACTIVE a change of the station state is compared (R151). -/
theorem Node.noticeStation_of_active {n : Node} (hp : n.neighbour.phase = .active) : n.noticeStation = n.noticeCheck :=
  if_neg (by simp [hp])

/-! ### The notice that follows several changes (R150) -/

section
variable {before n : Node}

/-- What changes no unit that a notice tells of, and keeps the queue, keeps the notice. -/
theorem Node.NoticeFollows.congr {m : Node} (h : Node.NoticeFollows before n) (hn : m.neighbour = n.neighbour)
    (ht : m.now = n.now) (hset : m.control.settings = n.control.settings) (hc : m.noticeContent = n.noticeContent)
    (hq : before.control.phase ≠ .safe → before.line.queue.length ≤ 2 → ∀ x ∈ n.line.queue, x ∈ m.line.queue) :
    Node.NoticeFollows before m := by
  intro last hactive hlast
  obtain ⟨hsame, hnew⟩ := h last hactive hlast
  rw [hn, ht, hc]
  refine ⟨hsame, fun hcalls => ?_⟩
  obtain ⟨hneighbour, hwaits⟩ := hnew hcalls
  refine ⟨hneighbour, fun hs hlen => ?_⟩
  obtain ⟨e, he, htel, hsending⟩ := hwaits hs hlen
  exact ⟨e, hq hs hlen e he, htel.trans (Node.presentNotice_congr hset hc).symm, hsending⟩

/-- What an ACTIVE unit holds then: the last notice of before, to which nothing is new, or the present content. -/
theorem Node.NoticeFollows.neighbour (h : Node.NoticeFollows before n) {last : NoticeContent}
    (hactive : before.neighbour.phase = .active) (hlast : before.neighbour.last = some last) :
    n.neighbour.phase = .active ∧
      ((¬ n.noticeContent.CallsForNotice last ∧ n.neighbour = before.neighbour) ∨
        n.neighbour = { before.neighbour with
          last := some n.noticeContent, lastAt := some n.now, timer := some (n.now + 3600000000) }) := by
  obtain ⟨hsame, hnew⟩ := h last hactive hlast
  by_cases hc : n.noticeContent.CallsForNotice last
  · have hneighbour := (hnew hc).1
    exact ⟨by rw [hneighbour]; exact hactive, .inr hneighbour⟩
  · exact ⟨by rw [hsame hc]; exact hactive, .inl ⟨hc, hsame hc⟩⟩

/-- A comparison with nothing changed since changes nothing. -/
theorem Node.NoticeFollows.noticeCheck (h : Node.NoticeFollows before n) : Node.NoticeFollows before n.noticeCheck := by
  intro last hactive hlast
  rcases n.noticeCheck_cases with ⟨hcheck, -⟩ | ⟨-, -, hcalls⟩
  · rw [hcheck]
    exact h last hactive hlast
  · obtain ⟨-, ⟨hnot, hneighbour⟩ | hneighbour⟩ := h.neighbour hactive hlast
    · exact absurd (hcalls last (by rw [hneighbour, hlast])) hnot
    · exact absurd (hcalls _ (by rw [hneighbour])) (NoticeContent.not_callsForNotice_self _)

/-- A change of the station state that the content does not show tells no more. -/
theorem Node.NoticeFollows.noticeStation (h : Node.NoticeFollows before n) : Node.NoticeFollows before n.noticeStation := by
  intro last hactive hlast
  rw [Node.noticeStation_of_active (h.neighbour hactive hlast).1]
  exact h.noticeCheck last hactive hlast

/-- A change of the call state from that of the last notice is told (R174). -/
theorem Node.NoticeFollows.setCall (h : Node.NoticeFollows before n) {c : Call} (hc : c.state ≠ n.call.state)
    (hnew : ∀ last, before.neighbour.phase = .active → before.neighbour.last = some last → c.state ≠ last.callState)
    {k : Nat} (hk : k ≤ 2) (offers : Node.OffersUpTo k before n) : Node.NoticeFollows before (n.setCall c) := by
  intro last hactive hlast
  obtain ⟨hphase, hneighbour⟩ := h.neighbour hactive hlast
  have hheld : ∃ x, (n.withCall c).neighbour.last = some x ∧ c.state ≠ x.callState := by
    obtain ⟨-, hsame⟩ | htold := hneighbour
    · exact ⟨last, by rw [Node.withCall_neighbour, hsame, hlast], hnew last hactive hlast⟩
    · exact ⟨n.noticeContent, by rw [Node.withCall_neighbour, htold], hc⟩
  have hset : n.setCall c = (n.withCall c).offerNotice := by
    obtain ⟨x, hx, hdiffers⟩ := hheld
    rcases (n.withCall c).noticeCheck_cases with ⟨-, hquiet⟩ | ⟨hoffer, -, -⟩
    · obtain ⟨y, hy, hnot⟩ := hquiet hphase
      obtain rfl := Option.some.inj (hx.symm.trans hy)
      exact absurd (NoticeContent.callsForNotice_of_callState hdiffers) hnot
    · exact hoffer
  rw [hset, Node.offerNotice_content]
  have hcalls : (n.withCall c).noticeContent.CallsForNotice last :=
    NoticeContent.callsForNotice_of_callState (hnew last hactive hlast)
  refine ⟨fun hnot => absurd hcalls hnot, fun _ => ⟨?_, fun hs hq => ?_⟩⟩
  · rw [Node.offerNotice_neighbour, (Node.offerNotice_talk _).now]
    obtain ⟨-, hsame⟩ | htold := hneighbour
    · rw [Node.withCall_neighbour, hsame]
    · rw [Node.withCall_neighbour, htold]
  · rw [Node.presentNotice_congr (Node.offerNotice_talk _).settings (Node.offerNotice_content _)]
    exact Node.offerNotice_waits (n := n.withCall c) (offers.phase ▸ hs) (Nat.le_of_lt (offers.room hk hs hq))

/-- A telegram other than a notice keeps the notice that waits. -/
theorem Node.NoticeFollows.offerOnly (h : Node.NoticeFollows before n) (owner : Owner) {t : Telegram} (ht : t.kind ≠ .fillNotice)
    {k : Nat} (hk : k ≤ 2) (offers : Node.OffersUpTo k before n) : Node.NoticeFollows before (n.offerOnly owner t) := by
  have same := n.sameButOffers_offerOnly owner t
  refine h.congr same.neighbour same.now same.settings
    (Node.noticeContent_congr same.settings same.sounding same.press same.hatch (congrArg Call.state same.call)) ?_
  intro hs hq
  exact (Node.offer_waits (offers.phase ▸ hs) ht (offers.room hk hs hq) owner).2.1

/-- Raising is told (R161, R174), where the last notice named the call state. -/
theorem Node.NoticeFollows.raiseCall (h : Node.NoticeFollows before n) (offers : Node.OffersUpTo 0 before n)
    (hlast : ∀ last, before.neighbour.phase = .active → before.neighbour.last = some last → last.callState = n.call.state) :
    Node.NoticeFollows before n.raiseCall := by
  by_cases hr : n.raising
  · have hnone : n.call.state = .none := hr.2.1
    have hnew {c : Call} (hc : c.state ≠ .none) (last : NoticeContent) (hactive : before.neighbour.phase = .active)
        (hl : before.neighbour.last = some last) : c.state ≠ last.callState := by rwa [hlast last hactive hl, hnone]
    have pending : Node.NoticeFollows before (n.setCall n.call.begun) :=
      h.setCall (by rw [hnone]; nofun) (hnew nofun) (by decide) offers
    have pendingOffers := offers.trans (n.offersUpTo_setCall n.call.begun)
    rw [Node.raiseCall_of hr, n.newCall_eq]
    split
    · have hkind := (n.setCall n.call.begun).callTelegram_kind (nextTag n.call.lastTag) 1
      have hoffer := (n.setCall n.call.begun).sameButOffers_offerOnly .callUnit
        ((n.setCall n.call.begun).callTelegram (nextTag n.call.lastTag) 1)
      refine (pending.offerOnly .callUnit hkind (by decide) pendingOffers).setCall ?_ (hnew nofun) (k := 1) (by decide)
        (pendingOffers.trans (Node.offersUpTo_offer _ _ _))
      rw [hoffer.call, Node.setCall_call]
      nofun
    · exact pending
  · rwa [Node.raiseCall_of_not hr]

end

end Sys2Proof.Machine
end

section
/-! O7: the end of a sounding takes its result (R12 to R14), and what follows that: the start conditions (R45), raising (R161), the
notice (R150) and the trigger (R112). -/

open Sys2Proof Sys2Proof.Machine

namespace Sys2Proof.Machine

/-! ### The start conditions (R45) -/

/-- What is told keeps being so beside a change of the hatch controller. -/
theorem Node.SameButTalk.withHatch {n m : Node} (h : n.SameButTalk m) (x : Hatch) :
    (n.withHatch x).SameButTalk (m.withHatch x) :=
  { h with hatch := rfl }

/-- The station leaves STARTING (R45). -/
abbrev Node.leavesStart (n : Node) : Prop := n.hatch.station = .starting ∧ n.startConditions = true

/-- The hatch controller once the start conditions are evaluated (R45). -/
def Node.startHatch (n : Node) : Hatch :=
  if n.leavesStart then { n.hatch with conditionsMet := true, station := n.readyOrService } else n.hatch

/-- The start conditions evaluated, and a station that leaves STARTING told of. -/
def Node.startLeft (n : Node) : Node := if n.leavesStart then (n.withHatch n.startHatch).noticeStation else n

theorem Node.startHatch_of {n : Node} (h : n.leavesStart) :
    n.startHatch = { n.hatch with conditionsMet := true, station := n.readyOrService } := if_pos h

theorem Node.startHatch_of_not {n : Node} (h : ¬ n.leavesStart) : n.startHatch = n.hatch := if_neg h

theorem Node.startLeft_of {n : Node} (h : n.leavesStart) : n.startLeft = (n.withHatch n.startHatch).noticeStation := if_pos h

theorem Node.startLeft_of_not {n : Node} (h : ¬ n.leavesStart) : n.startLeft = n := if_neg h

/-- A station leaves STARTING for READY or SERVICE. -/
theorem Node.readyOrService_cases (n : Node) : n.readyOrService = .ready ∨ n.readyOrService = .service := by
  unfold Node.readyOrService
  split
  · exact .inr rfl
  · exact .inl rfl

/-- The evaluation of the start conditions, and then of raising: a station that becomes READY has raised already (R45, R161). -/
theorem Node.evaluateStart_raiseCall (n : Node) : n.evaluateStart.raiseCall = n.startLeft.raiseCall := by
  by_cases h : n.leavesStart
  · have hne : (n.withHatch { n.hatch with conditionsMet := true }).hatch.station ≠ n.readyOrService := by
      have hstarting : (n.withHatch { n.hatch with conditionsMet := true }).hatch.station = .starting := h.1
      rcases n.readyOrService_cases with hr | hr <;> rw [hstarting, hr] <;> nofun
    have hstart : n.evaluateStart = if n.readyOrService = .ready then n.startLeft.raiseCall else n.startLeft := by
      rw [Node.startLeft_of h, Node.startHatch_of h]
      unfold Node.evaluateStart Node.setStation
      rw [if_pos h, if_neg hne]
      rfl
    rw [hstart]
    split
    · exact n.startLeft.raiseCall_raiseCall
    · rfl
  · rw [Node.startLeft_of_not h]
    exact congrArg Node.raiseCall (if_neg h)

/-- The start conditions change the hatch controller and tell of it. -/
theorem Node.startLeft_talk (n : Node) : (n.withHatch n.startHatch).SameButTalk n.startLeft := by
  by_cases h : n.leavesStart
  · rw [Node.startLeft_of h]
    exact Node.noticeStation_talk _
  · rw [Node.startLeft_of_not h, Node.startHatch_of_not h]
    exact .refl n

theorem Node.startLeft_call (n : Node) : n.startLeft.call = n.call := by
  by_cases h : n.leavesStart
  · rw [Node.startLeft_of h, Node.noticeStation_call]
    rfl
  · rw [Node.startLeft_of_not h]

theorem Node.offersUpTo_startLeft (n : Node) : Node.OffersUpTo 0 n n.startLeft := by
  by_cases h : n.leavesStart
  · rw [Node.startLeft_of h]
    exact (n.withHatch n.startHatch).offersUpTo_noticeStation.congr_left rfl rfl
  · rw [Node.startLeft_of_not h]
    exact .refl n

/-- With the start conditions met a SILENT neighbour unit becomes ACTIVE (R151). -/
theorem Node.startLeft_active {n : Node} (h : n.leavesStart) (hp : n.neighbour.phase = .silent) :
    n.startLeft.neighbour.phase = .active := by
  have hstation : (n.withHatch n.startHatch).hatch.station = n.readyOrService := by
    rw [Node.startHatch_of h]
    rfl
  rw [Node.startLeft_of h]
  refine Node.noticeStation_active hp ?_ ?_ <;>
    rcases n.readyOrService_cases with hr | hr <;> rw [hstation, hr] <;> nofun

/-- The content of a notice does not show that the station leaves STARTING. -/
theorem Node.startHatch_content (n : Node) : (n.withHatch n.startHatch).noticeContent = n.noticeContent := by
  by_cases h : n.leavesStart
  · have hready : (n.readyOrService == .outOfService) = false := by
      rcases n.readyOrService_cases with hr | hr <;> rw [hr] <;> rfl
    simp [Node.noticeContent, Node.startHatch_of h, h.1, hready, Node.serviceRuns]
  · rw [Node.startHatch_of_not h]
    rfl

/-- The notice follows the start conditions too. -/
theorem Node.NoticeFollows.startLeft {before n : Node} (h : Node.NoticeFollows before n) :
    Node.NoticeFollows before n.startLeft := by
  by_cases hl : n.leavesStart
  · rw [Node.startLeft_of hl]
    exact (h.congr (m := n.withHatch n.startHatch) rfl rfl rfl n.startHatch_content fun _ _ _ hx => hx).noticeStation
  · rwa [Node.startLeft_of_not hl]

/-- What is told changes nothing of the start conditions. -/
theorem Node.SameButTalk.leavesStart_iff {n m : Node} (h : n.SameButTalk m) : m.leavesStart ↔ n.leavesStart := by
  have hpress : m.pressHome = n.pressHome := by simp only [Node.pressHome, h.settings, h.press]
  simp only [Node.leavesStart, Node.startConditions, hpress, h.phase, h.cards, h.logPhase, h.hatch]

theorem Node.SameButTalk.startHatch {n m : Node} (h : n.SameButTalk m) : m.startHatch = n.startHatch := by
  have hready : m.readyOrService = n.readyOrService := by
    unfold Node.readyOrService Node.serviceRuns
    rw [h.hatch]
  by_cases hl : n.leavesStart
  · rw [Node.startHatch_of hl, Node.startHatch_of (h.leavesStart_iff.mpr hl), h.hatch, hready]
  · rw [Node.startHatch_of_not hl, Node.startHatch_of_not (hl ∘ h.leavesStart_iff.mp), h.hatch]

/-- Raising keeps the neighbour unit's phase. -/
theorem Node.raiseCall_phase (n : Node) : n.raiseCall.neighbour.phase = n.neighbour.phase := by
  have hset (n : Node) (c : Call) : (n.setCall c).neighbour.phase = n.neighbour.phase := (n.withCall c).noticeCheck_phase
  by_cases h : n.raising
  · rw [Node.raiseCall_of h, n.newCall_eq]
    split
    · rw [hset, (Node.sameButOffers_offerOnly _ _ _).neighbour, hset]
    · exact hset _ _
  · rw [Node.raiseCall_of_not h]

/-! ### The end of a sounding (R12 to R14) -/

/-- The sounding unit after a sounding with results `results` of a flight `f`, at `now` (R7, R8, R12, R13). -/
def Sounding.concluded (u : Sounding) (c : Settings) (f : Flight) (sorted : List Nat) (now : Moment) : Sounding :=
  let fill := measuredFill c.e0 c.f0 (distanceOf (medianOf sorted) (speedOfSound f.temperature))
  let after := { u with flight := none, periodic := some (now + 1800000000) }
  let resting := if u.request.isSome then SoundingPhase.waiting else SoundingPhase.idle
  if sorted.length < (c.pingCount + 1) / 2 then
    { after with
      phase := resting
      failures := min 255 (u.failures + 1)
      sensorFault := u.sensorFault || decide (3 ≤ min 255 (u.failures + 1))
      last := some .failed
      median := none }
  else
    let used := { after with
      phase := resting
      fill := some fill
      full := if c.fullThreshold ≤ fill then true else if fill ≤ c.fullThreshold - 50 then false else u.full
      sensorFault := false
      failures := 0
      last := some (if 2000 < spreadOf sorted then .unsteady else .accepted)
      median := some (medianOf sorted) }
    if 2000 < spreadOf sorted ∧ f.repeats = false then used.arm now (now + 30000000) false true else used

/-- The evaluation of the results as the sounding unit takes it, told by one comparison. -/
theorem Node.takeEvaluation_eq (n : Node) (f : Flight) :
    n.takeEvaluation f.repeats (evaluateSounding n.control.settings f.temperature f.allResults) =
      (n.withSounding (n.sounding.concluded n.control.settings f (validPings f.allResults) n.now)).noticeCheck := by
  unfold Sounding.concluded
  by_cases h : (validPings f.allResults).length < (n.control.settings.pingCount + 1) / 2
  · rw [evaluateSounding_failed h]
    simp only [if_pos h]
    rfl
  · rw [evaluateSounding_used h]
    simp only [if_neg h]
    refine congrArg (fun u => (n.withSounding u).noticeCheck) ?_
    simp only [Bool.and_eq_true, decide_eq_true_eq, Bool.not_eq_true']
    rfl

/-- The node `n` with the sounding unit `u` and the first sounding ended (R14). -/
def Node.sounded (n : Node) (u : Sounding) : Node :=
  (n.withSounding u).withHatch { n.hatch with firstSounding := true }

/-- Raising is due in what `m` has become of `n` (R161). -/
abbrev Node.RaiseDue (n m : Node) : Prop :=
  n.call.stopped = false ∧ n.call.state = .none ∧ m.hatch.station = .ready ∧ m.fillToCall = true

/-- What the end of a sounding makes of `n` with the sounding unit `u`, up to the trigger (R14): the start conditions have been
evaluated, and raising after them; the notice follows. -/
structure Node.ResultPassed (n : Node) (u : Sounding) (m : Node) : Prop where
  talk   : ((n.sounded u).withHatch (n.sounded u).startHatch).SameButTalk m
  offers : Node.OffersUpTo 1 n m
  active : (n.sounded u).leavesStart → n.neighbour.phase = .silent → m.neighbour.phase = .active
  raised : n.RaiseDue m → m.call = if n.mayTransmit then n.call.begun.sentAt n.now else n.call.begun
  kept   : ¬ n.RaiseDue m → m.call = n.call
  notice : (∀ last, n.neighbour.phase = .active → n.neighbour.last = some last → last.callState = n.call.state) →
    Node.NoticeFollows n m

/-- The same with the change of the sounding unit told. -/
def Node.soundedTold (n : Node) (u : Sounding) : Node :=
  (n.withSounding u).noticeCheck.withHatch { n.hatch with firstSounding := true }

theorem Node.soundedTold_talk (n : Node) (u : Sounding) : (n.sounded u).SameButTalk (n.soundedTold u) :=
  (n.withSounding u).noticeCheck_talk.withHatch _

theorem Node.soundedTold_call (n : Node) (u : Sounding) : (n.soundedTold u).call = n.call :=
  (n.withSounding u).noticeCheck_call

theorem Node.soundedTold_phase (n : Node) (u : Sounding) : (n.soundedTold u).neighbour.phase = n.neighbour.phase :=
  (n.withSounding u).noticeCheck_phase

theorem Node.offersUpTo_soundedTold (n : Node) (u : Sounding) : Node.OffersUpTo 0 n (n.soundedTold u) :=
  ((n.withSounding u).offersUpTo_noticeCheck.congr_left (a := n) rfl rfl).withHatch _

theorem Node.noticeFollows_soundedTold (n : Node) (u : Sounding) : Node.NoticeFollows n (n.soundedTold u) := by
  have follows : Node.NoticeFollows n (n.withSounding u).noticeCheck := Node.noticeFollows_noticeCheck rfl rfl rfl
  have hhatch : (n.withSounding u).noticeCheck.hatch = n.hatch := (n.withSounding u).noticeCheck_talk.hatch
  refine follows.congr rfl rfl rfl ?_ fun _ _ _ hx => hx
  simp [Node.soundedTold, Node.noticeContent, Node.serviceRuns, hhatch]

/-- The passing of a result, up to the trigger. -/
theorem Node.passResult_spec (n : Node) (u : Sounding) :
    ∃ m, (n.withSounding u).noticeCheck.passResult = m.pressTrigger ∧ n.ResultPassed u m := by
  have hhatch : (n.withSounding u).noticeCheck.hatch = n.hatch := (n.withSounding u).noticeCheck_talk.hatch
  have hpass : (n.withSounding u).noticeCheck.passResult = (n.soundedTold u).startLeft.raiseCall.pressTrigger := by
    unfold Node.passResult
    rw [hhatch]
    exact congrArg Node.pressTrigger (Node.evaluateStart_raiseCall _)
  have told := n.soundedTold_talk u
  have start := (n.soundedTold u).startLeft_talk
  rw [told.startHatch] at start
  have before := (told.withHatch (n.sounded u).startHatch).trans start
  have hcall : (n.soundedTold u).startLeft.call = n.call := (n.soundedTold u).startLeft_call.trans (n.soundedTold_call u)
  have offers := (n.offersUpTo_soundedTold u).trans (n.soundedTold u).offersUpTo_startLeft
  obtain ⟨raise, raiseOffers, hraised⟩ := (n.soundedTold u).startLeft.raiseCall_spec
  have hfill : (n.soundedTold u).startLeft.raiseCall.fillToCall = (n.soundedTold u).startLeft.fillToCall := by
    simp only [Node.fillToCall, raise.sounding, raise.settings]
  have hmay : (n.soundedTold u).startLeft.mayTransmit = n.mayTransmit := congrArg (· != Polarity.undetected) before.polarity
  have hnow : (n.soundedTold u).startLeft.now = n.now := before.now
  have hraising : (n.soundedTold u).startLeft.raising ↔ n.RaiseDue (n.soundedTold u).startLeft.raiseCall := by
    rw [Node.raising, Node.RaiseDue, hcall, hfill, raise.hatch]
  refine ⟨_, hpass, ?_⟩
  exact {
    talk := before.trans raise
    offers := offers.trans raiseOffers
    active := fun hl hp => by
      rw [Node.raiseCall_phase]
      exact Node.startLeft_active (told.leavesStart_iff.mpr hl) ((n.soundedTold_phase u).trans hp)
    raised := fun hr => by rw [hraised (hraising.mpr hr), hmay, hnow, hcall]
    kept := fun hr => by rw [Node.raiseCall_of_not (hr ∘ hraising.mp), hcall]
    notice := fun hlast => ((n.noticeFollows_soundedTold u).startLeft).raiseCall offers (hcall ▸ hlast) }

/-- The station leaves STARTING at the end of a sounding when the other conditions hold (R45). -/
theorem Node.sounded_leavesStart {n : Node} (h : n.control.phase = .running) (u : Sounding) :
    (n.sounded u).leavesStart ↔
      n.hatch.station = .starting ∧ (n.cards.phase ≠ .scanning ∧ n.log.phase = .opened ∧ n.pressHome = true) := by
  have hstation : (n.sounded u).hatch.station = n.hatch.station := rfl
  have hstart : (n.sounded u).startConditions = (n.control.phase == .running && n.cards.phase != .scanning &&
      n.log.phase == .opened && n.pressHome && true) := rfl
  simp [Node.leavesStart, hstation, hstart, h, and_assoc]

/-- The node may transmit once the polarity is known (R135). -/
theorem Node.mayTransmit_iff (n : Node) : n.mayTransmit = true ↔ n.line.polarity ≠ .undetected := by
  simp [Node.mayTransmit]

/-- The fill condition of R161 as the statements write it. -/
theorem Node.fillToCall_iff (n : Node) : n.fillToCall = true ↔
    (∃ f, n.sounding.fill = some f ∧ n.control.settings.callThreshold ≤ f) ∨ n.sounding.full = true := by
  unfold Node.fillToCall
  cases n.sounding.fill <;> simp

/-- Under the notice law the last notice named the call state (R150). -/
theorem Node.NoticeLaw.last_callState {n : Node} (h : n.NoticeLaw) (last : NoticeContent)
    (hactive : n.neighbour.phase = .active) (hlast : n.neighbour.last = some last) : last.callState = n.call.state := by
  obtain ⟨x, hx, hnot⟩ := h.current hactive
  obtain rfl := Option.some.inj (hlast.symm.trans hx)
  by_contra hne
  exact hnot (NoticeContent.callsForNotice_of_callState (Ne.symm hne))

/-- After the last slot the sounding's results are evaluated and passed on (R6). -/
theorem Node.soundingEnd_of {n : Node} {f : Flight} {t : Moment} (hf : n.sounding.flight = some f) (ht : f.firstBurst = some t)
    (hslots : f.results.length + (if f.slot.isSome then 1 else 0) = n.control.settings.pingCount) :
    let ended := n.reach (t + n.control.settings.pingCount * 60000)
    n.soundingEnd = ((ended.withSounding (n.sounding.concluded n.control.settings f (validPings f.allResults)
      ended.now)).noticeCheck).passResult := by
  intro ended
  have hbegun : f.slotsBegun = n.control.settings.pingCount := hslots
  have hevaluation := ended.takeEvaluation_eq f
  unfold Node.soundingEnd
  simp only [hf, ht, if_pos hbegun]
  exact congrArg Node.passResult hevaluation

section
variable {n m : Node} {u : Sounding}

/-- The hatch controller once the trigger is evaluated too. -/
theorem Node.ResultPassed.hatch (h : n.ResultPassed u m) : m.pressTrigger.hatch = (n.sounded u).startHatch :=
  m.pressTrigger_same.1.hatch.trans h.talk.hatch

/-- The first sounding has ended (R14). -/
theorem Node.ResultPassed.firstSounding (h : n.ResultPassed u m) : m.pressTrigger.hatch.firstSounding = true := by
  rw [h.hatch]
  by_cases hl : (n.sounded u).leavesStart
  · rw [Node.startHatch_of hl]
    rfl
  · rw [Node.startHatch_of_not hl]
    rfl

/-- A running station whose other start conditions hold leaves STARTING (R45, R151). -/
theorem Node.ResultPassed.startsWhen (h : n.ResultPassed u m) (hrun : n.control.phase = .running) :
    Node.StartsWhen (n.cards.phase ≠ .scanning ∧ n.log.phase = .opened ∧ n.pressHome = true) n m.pressTrigger := by
  unfold Node.StartsWhen
  rw [← n.sounded_leavesStart hrun u, h.hatch]
  refine ⟨fun hl => ⟨?_, ?_, fun hp => ?_⟩, fun hl => ?_⟩
  · rw [Node.startHatch_of hl]
  · rw [Node.startHatch_of hl]
    rfl
  · rw [m.pressTrigger_same.1.neighbour]
    exact h.active hl hp
  · rw [Node.startHatch_of_not hl]
    rfl

/-- Raising has been evaluated with the new fill (R161, R162). -/
theorem Node.ResultPassed.raisesCallWhen (h : n.ResultPassed u m) : Node.RaisesCallWhen True n m.pressTrigger := by
  have same := m.pressTrigger_same.1
  have hdue : (True ∧ n.call.stopped = false ∧ n.call.state = .none ∧ m.pressTrigger.hatch.station = .ready ∧
      ((∃ x, m.pressTrigger.sounding.fill = some x ∧ n.control.settings.callThreshold ≤ x) ∨
        m.pressTrigger.sounding.full = true)) ↔ n.RaiseDue m := by
    rw [Node.RaiseDue, m.fillToCall_iff, same.hatch, same.sounding, h.talk.settings, true_and]
    rfl
  unfold Node.RaisesCallWhen
  simp only [hdue, same.call, Node.withPress_call]
  refine ⟨fun hr => ?_, h.kept⟩
  have hcall := h.raised hr
  by_cases hp : n.line.polarity = .undetected
  · rw [if_neg (mt n.mayTransmit_iff.mp (not_not.mpr hp))] at hcall
    rw [if_pos hp, hcall]
    exact ⟨rfl, rfl, rfl, rfl, rfl, rfl⟩
  · rw [if_pos (n.mayTransmit_iff.mpr hp)] at hcall
    rw [if_neg hp, hcall]
    exact ⟨rfl, rfl, rfl, rfl, rfl, rfl⟩

/-- A notice follows when the content calls for one (R150): the trigger that comes after keeps it. -/
theorem Node.ResultPassed.noticeFollows (h : n.ResultPassed u m)
    (hlast : ∀ last, n.neighbour.phase = .active → n.neighbour.last = some last → last.callState = n.call.state) :
    Node.NoticeFollows n m.pressTrigger := by
  have same := m.pressTrigger_same.1
  refine (h.notice hlast).congr same.neighbour same.now same.settings m.pressTrigger_content fun hs hq x hx => ?_
  exact Node.pressTrigger_stays (h.offers.phase ▸ hs) (h.offers.room (by decide) hs hq) hx

/-- The trigger of a claim is evaluated last (R112). -/
theorem Node.ResultPassed.claimsWhenTriggered (h : n.ResultPassed u m) (hs : n.control.phase ≠ .safe) :
    Node.ClaimsWhenTriggered n m.pressTrigger :=
  Node.claimsWhenTriggered h.talk.settings (congrArg Press.state h.talk.press) (congrArg Press.claim h.talk.press)
    (congrArg Press.retry h.talk.press) (h.offers.phase ▸ hs) (h.offers.room (by decide) hs)

end

end Sys2Proof.Machine

/-- Settles O7: the results evaluated into the sounding unit, and what follows that, each by its rule. -/
theorem soundingEndTakesTheResult : Obligations.SoundingEndTakesTheResult := by
  intro s dt f t hruns hlaw hf ht hslots
  let ended := (s.node.advance dt).reach (t + s.node.control.settings.pingCount * 60000)
  obtain ⟨r, hpass, passed⟩ := ended.passResult_spec (s.node.sounding.concluded s.node.control.settings f
    (validPings (f.results ++ (f.slot.map (·.echo)).toList)) ended.now)
  have hend : (s.node.advance dt).soundingEnd = r.pressTrigger := by
    rw [Node.soundingEnd_of (n := s.node.advance dt) hf ht hslots, Flight.allResults_eq]
    exact hpass
  have hexec : exec (.soundingEnd dt) s = .next ⟨(s.node.advance dt).soundingEnd, s.pending⟩ :=
    State.perform_station hruns.acts dt _
  rw [hend] at hexec
  have hrunning : s.node.control.phase ≠ .safe := by rw [hruns.2.1]; nofun
  have same := r.pressTrigger_same.1
  have hnow : r.pressTrigger.now = ended.now := same.now.trans passed.talk.now
  have hsounding := same.sounding.trans passed.talk.sounding
  exact ⟨_, hexec, hnow, hnow ▸ hsounding, passed.firstSounding, passed.startsWhen hruns.2.1, passed.raisesCallWhen,
    passed.noticeFollows hlaw.last_callState, passed.claimsWhenTriggered hrunning, same.cards.trans passed.talk.cards,
    same.store.trans passed.talk.store, same.tally.trans passed.talk.tally, same.clock.trans passed.talk.clock,
    same.held.trans passed.talk.held, same.settings.trans passed.talk.settings, same.relay.trans passed.talk.relay⟩
end

section
/-! Lists by rising place, as the card table holds its slots and positions (R26): what a place holds, a place that takes a value
or is freed, and the lowest free place. -/

open Sys2Proof Sys2Proof.Machine

namespace Sys2Proof.Machine

/-- The places of the list rise. -/
abbrev Ascending {α : Type} (list : List (Nat × α)) : Prop := list.Pairwise (fun a b => a.1 < b.1)

section
variable {α : Type} {place k : Nat} {x y : α} {list : List (Nat × α)}

/-! ### What a place holds -/

/-- In a rising list no two entries stand at one place. -/
theorem Ascending.eq_of_place (h : Ascending list) {p q : Nat × α} (hp : p ∈ list) (hq : q ∈ list) (hpq : p.1 = q.1) :
    p = q :=
  List.inj_on_of_nodup_map (List.pairwise_map.mpr (h.imp Nat.ne_of_lt)) hp hq hpq

theorem valueAt_eq_none_iff : valueAt place list = none ↔ ∀ p ∈ list, p.1 ≠ place := by
  simp [valueAt]

theorem valueAt_eq_some_iff (h : Ascending list) : valueAt place list = some x ↔ (place, x) ∈ list := by
  unfold valueAt
  rw [Option.map_eq_some_iff]
  constructor
  · rintro ⟨p, hp, rfl⟩
    have hplace : p.1 = place := by simpa using List.find?_some hp
    exact hplace ▸ List.mem_of_find?_eq_some hp
  · intro hx
    obtain ⟨p, hp⟩ := Option.isSome_iff_exists.mp
      (List.find?_isSome (p := fun p : Nat × α => p.1 == place) |>.mpr ⟨(place, x), hx, beq_self_eq_true place⟩)
    have hplace : p.1 = place := by simpa using List.find?_some hp
    exact ⟨p, hp, congrArg Prod.snd (h.eq_of_place (List.mem_of_find?_eq_some hp) hx hplace)⟩

/-! ### A place that is freed -/

theorem mem_freeAt {p : Nat × α} : p ∈ freeAt place list ↔ p ∈ list ∧ p.1 ≠ place := by
  simp [freeAt]

theorem Ascending.free (h : Ascending list) (place : Nat) : Ascending (freeAt place list) :=
  List.Pairwise.filter _ h

@[simp] theorem valueAt_freeAt : valueAt place (freeAt place list) = none :=
  valueAt_eq_none_iff.mpr fun _ hp => (mem_freeAt.mp hp).2

theorem freeAt_of_none (h : valueAt place list = none) : freeAt place list = list :=
  List.filter_eq_self.mpr fun p hp => by simpa using valueAt_eq_none_iff.mp h p hp

/-- Freeing a place below every entry changes nothing. -/
theorem freeAt_of_lt (h : ∀ p ∈ list, place < p.1) : freeAt place list = list :=
  freeAt_of_none (valueAt_eq_none_iff.mpr fun p hp => Nat.ne_of_gt (h p hp))

theorem freeAt_cons_self : freeAt place ((place, x) :: list) = freeAt place list := by
  simp [freeAt]

theorem freeAt_cons_of_ne (h : k ≠ place) : freeAt place ((k, x) :: list) = (k, x) :: freeAt place list := by
  simp [freeAt, h]

/-- The entries are the one at the place, and those that stay when the place is freed. -/
theorem Ascending.perm_cons_freeAt (h : Ascending list) (hx : (place, x) ∈ list) :
    list.Perm ((place, x) :: freeAt place list) := by
  induction list with
  | nil => cases hx
  | cons p rest ih =>
    obtain ⟨hp, hrest⟩ := List.pairwise_cons.mp h
    rcases List.mem_cons.mp hx with rfl | hmem
    · rw [freeAt_cons_self, freeAt_of_lt hp]
    · obtain ⟨k, y⟩ := p
      have hne : k ≠ place := Nat.ne_of_lt (hp _ hmem)
      rw [freeAt_cons_of_ne hne]
      exact ((ih hrest hmem).cons _).trans (.swap _ _ _)

/-! ### A place that takes a value -/

/-- The entries after a place has taken a value: it, and those that stay when the place is freed. -/
theorem Ascending.putAt_perm (h : Ascending list) (place : Nat) (x : α) :
    (putAt place x list).Perm ((place, x) :: freeAt place list) := by
  induction list with
  | nil => exact .refl _
  | cons p rest ih =>
    obtain ⟨k, y⟩ := p
    obtain ⟨hp, hrest⟩ := List.pairwise_cons.mp h
    unfold putAt
    split
    next hlt =>
      rw [freeAt_of_lt fun q hq => ?_]
      rcases List.mem_cons.mp hq with rfl | hq
      · exact hlt
      · exact hlt.trans (hp q hq)
    next =>
      split
      next heq =>
        subst heq
        rw [freeAt_cons_self, freeAt_of_lt hp]
      next hne =>
        rw [freeAt_cons_of_ne (Ne.symm hne)]
        exact ((ih hrest).cons _).trans (.swap _ _ _)

theorem Ascending.mem_putAt (h : Ascending list) {p : Nat × α} :
    p ∈ putAt place x list ↔ p = (place, x) ∨ (p ∈ list ∧ p.1 ≠ place) := by
  rw [(h.putAt_perm place x).mem_iff, List.mem_cons, mem_freeAt]

theorem Ascending.put (h : Ascending list) (place : Nat) (x : α) : Ascending (putAt place x list) := by
  induction list with
  | nil => exact List.pairwise_singleton _ _
  | cons p rest ih =>
    obtain ⟨k, y⟩ := p
    obtain ⟨hp, hrest⟩ := List.pairwise_cons.mp h
    unfold putAt
    split
    next hlt =>
      refine List.pairwise_cons.mpr ⟨fun q hq => ?_, h⟩
      rcases List.mem_cons.mp hq with rfl | hq
      · exact hlt
      · exact hlt.trans (hp q hq)
    next hnot =>
      split
      next heq => exact List.pairwise_cons.mpr ⟨heq ▸ hp, hrest⟩
      next hne =>
        refine List.pairwise_cons.mpr ⟨fun q hq => ?_, ih hrest⟩
        rcases (Ascending.mem_putAt hrest).mp hq with rfl | ⟨hq, -⟩
        · show k < place
          omega
        · exact hp q hq

theorem Ascending.valueAt_putAt (h : Ascending list) : valueAt place (putAt place x list) = some x :=
  (valueAt_eq_some_iff (h.put place x)).mpr (h.mem_putAt.mpr (.inl rfl))

/-! ### Counts and sums -/

/-- A value into a free place is one entry more; into a held one it takes the other's stead. -/
theorem Ascending.length_putAt (h : Ascending list) :
    (putAt place x list).length = list.length + (if (valueAt place list).isSome then 0 else 1) := by
  rw [(h.putAt_perm place x).length_eq, List.length_cons]
  cases hv : valueAt place list with
  | none => rw [freeAt_of_none hv]; rfl
  | some y => rw [(h.perm_cons_freeAt ((valueAt_eq_some_iff h).mp hv)).length_eq]; rfl

theorem Ascending.length_freeAt (h : Ascending list) (hx : (place, x) ∈ list) :
    (freeAt place list).length + 1 = list.length :=
  (h.perm_cons_freeAt hx).length_eq.symm

/-- A sum over the values, of which the place's is taken out. -/
theorem Ascending.sum_freeAt {w : Nat} (h : Ascending list) (hx : (place, x) ∈ list) (f : α → BitVec w) :
    ((freeAt place list).map (fun p => f p.2)).sum = (list.map (fun p => f p.2)).sum - f x := by
  have hsum := ((h.perm_cons_freeAt hx).map (fun p => f p.2)).sum_eq
  rw [hsum, List.map_cons, List.sum_cons]
  simp

/-- A sum over the values, of which the place's is another now. -/
theorem Ascending.sum_putAt {w : Nat} (h : Ascending list) (f : α → BitVec w) :
    ((putAt place x list).map (fun p => f p.2)).sum =
      (list.map (fun p => f p.2)).sum - ((valueAt place list).map f).getD 0 + f x := by
  have hsum := ((h.putAt_perm place x).map (fun p => f p.2)).sum_eq
  rw [hsum, List.map_cons, List.sum_cons]
  cases hv : valueAt place list with
  | none => rw [freeAt_of_none hv]; simp [BitVec.add_comm]
  | some y =>
    rw [h.sum_freeAt ((valueAt_eq_some_iff h).mp hv)]
    simp [BitVec.add_comm]

/-! ### The lowest free place (R30, R35) -/

/-- The lowest free place lies among those asked for, and is free. -/
theorem lowestFree_spec {first count : Nat} (h : lowestFree list first count = some place) :
    first ≤ place ∧ place < first + count ∧ valueAt place list = none := by
  obtain ⟨k, hk, rfl⟩ := List.mem_map.mp (List.mem_of_find?_eq_some h)
  have hfree := List.find?_some h
  exact ⟨Nat.le_add_right _ _, Nat.add_lt_add_left (List.mem_range.mp hk) _, by simpa using hfree⟩

end

end Sys2Proof.Machine
end

section
/-! The card table's law (R27, R35, R38) by its two halves, and what each operation of a CARD UPDATE makes of them. -/

open Sys2Proof Sys2Proof.Machine

namespace Sys2Proof.Machine

/-! ### The two halves of the law -/

/-- The law of the records: the occupied slots rise within the table, no bucket holds a number twice, and the entry count and the
check value are those of the records held (R27, R38). -/
structure Cards.SlotsLaw (c : Cards) : Prop where
  rising     : Ascending c.slots
  range      : ∀ p ∈ c.slots, p.1 < 4 * bucketCount
  once       : ∀ p ∈ c.slots, ∀ q ∈ c.slots, p.1 / 4 = q.1 / 4 → p.2.number = q.2.number → p.1 = q.1
  entries    : c.entries = c.slots.length
  checkValue : c.checkValue = (c.slots.map (fun p => recordCrc p.2)).sum

/-- The law of the revocation list: the held positions rise within the list, no number is held twice, and the count is that of
the numbers held (R35). -/
structure Cards.RevokedLaw (c : Cards) : Prop where
  rising : Ascending c.revoked
  range  : ∀ p ∈ c.revoked, p.1 < revocationPositions
  once   : ∀ p ∈ c.revoked, ∀ q ∈ c.revoked, p.2 = q.2 → p.1 = q.1
  count  : c.revocations = c.revoked.length

/-- The card table's law is that of its two halves, and of the table's phase while the configuration is read. -/
theorem Node.cardLaw_iff (n : Node) :
    n.CardLaw ↔ n.cards.SlotsLaw ∧ n.cards.RevokedLaw ∧ (n.control.phase = .reading → n.cards.phase = .scanning) :=
  ⟨fun h => ⟨⟨h.slots, h.slotRange, h.once, h.entries, h.checkValue⟩, ⟨h.positions, h.range, h.revokedOnce, h.revocations⟩,
      h.reading⟩,
    fun ⟨s, r, h⟩ => ⟨s.rising, s.range, s.once, s.entries, s.checkValue, r.rising, r.range, r.once, r.count, h⟩⟩

/-- The law of the records hangs on the records, their count and the check value alone. -/
theorem Cards.SlotsLaw.congr {c d : Cards} (h : c.SlotsLaw) (hs : d.slots = c.slots) (he : d.entries = c.entries)
    (hv : d.checkValue = c.checkValue) : d.SlotsLaw :=
  ⟨hs ▸ h.rising, hs ▸ h.range, hs ▸ h.once, he ▸ hs ▸ h.entries, hv ▸ hs ▸ h.checkValue⟩

/-- The law of the revocation list hangs on the numbers held and their count alone. -/
theorem Cards.RevokedLaw.congr {c d : Cards} (h : c.RevokedLaw) (hr : d.revoked = c.revoked)
    (hn : d.revocations = c.revocations) : d.RevokedLaw :=
  ⟨hr ▸ h.rising, hr ▸ h.range, hr ▸ h.once, hn ▸ hr ▸ h.count⟩

theorem Cards.slotsLaw_empty {c : Cards} (hs : c.slots = []) (he : c.entries = 0) (hv : c.checkValue = 0) : c.SlotsLaw :=
  ⟨hs ▸ .nil, by simp [hs], by simp [hs], by simp [hs, he], by simp [hs, hv]⟩

theorem Cards.revokedLaw_empty {c : Cards} (hr : c.revoked = []) (hn : c.revocations = 0) : c.RevokedLaw :=
  ⟨hr ▸ .nil, by simp [hr], by simp [hr], by simp [hr, hn]⟩

/-! ### Where a number stands (R27, R28) -/

/-- What the lookup of a number finds is a slot of its bucket that holds it. -/
theorem slotHolding_some {slots : List (Nat × CardRecord)} {number : CardNumber} {s : Nat × CardRecord}
    (h : slotHolding slots number = some s) : s ∈ slots ∧ s.1 / 4 = number.toNat % 512 ∧ s.2.number = number := by
  have hs := List.find?_some h
  simp only [Bool.and_eq_true, beq_iff_eq] at hs
  exact ⟨List.mem_of_find?_eq_some h, hs⟩

theorem slotHolding_eq_none_iff {slots : List (Nat × CardRecord)} {number : CardNumber} :
    slotHolding slots number = none ↔ ∀ p ∈ slots, p.1 / 4 = number.toNat % 512 → p.2.number ≠ number := by
  simp [slotHolding, bucketCount]

section
variable {c : Cards} {number : CardNumber} {slot : Nat} {r : CardRecord}

/-- Under the law the lookup finds the one slot of the bucket that holds the number. -/
theorem Cards.SlotsLaw.slotHolding_iff (h : c.SlotsLaw) :
    slotHolding c.slots number = some (slot, r) ↔
      (slot, r) ∈ c.slots ∧ slot / 4 = number.toNat % 512 ∧ r.number = number := by
  refine ⟨slotHolding_some, fun ⟨hmem, hbucket, hnumber⟩ => ?_⟩
  cases hs : slotHolding c.slots number with
  | none => exact absurd hnumber (slotHolding_eq_none_iff.mp hs _ hmem hbucket)
  | some s =>
    obtain ⟨hmem', hbucket', hnumber'⟩ := slotHolding_some hs
    have hplace := h.once s hmem' _ hmem (hbucket'.trans hbucket.symm) (hnumber'.trans hnumber.symm)
    exact congrArg some (h.rising.eq_of_place hmem' hmem hplace)

/-- A record lookup outside CLEARING, under the law (R28). -/
theorem Cards.SlotsLaw.lookup_iff (h : c.SlotsLaw) (hp : c.phase ≠ .clearing) :
    c.lookup number = some r ↔ ∃ p, (p, r) ∈ c.slots ∧ p / 4 = number.toNat % 512 ∧ r.number = number := by
  simp only [Cards.lookup, if_neg hp, Option.map_eq_some_iff, Prod.exists, h.slotHolding_iff]
  constructor
  · rintro ⟨p, q, hq, rfl⟩
    exact ⟨p, hq⟩
  · rintro ⟨p, hq⟩
    exact ⟨p, r, hq, rfl⟩

/-- The slot that an ADD takes lies in its number's bucket; it holds the record that the lookup finds, or is free with the number
absent (R30). -/
theorem Cards.slotFor_spec (h : c.SlotsLaw) (hs : c.slotFor number = some slot) :
    slot / 4 = number.toNat % 512 ∧ valueAt slot c.slots = (slotHolding c.slots number).map (·.2) := by
  unfold Cards.slotFor at hs
  split at hs
  next s hfound =>
    obtain rfl := Option.some.inj hs
    obtain ⟨hmem, hbucket, -⟩ := slotHolding_some hfound
    exact ⟨hbucket, by rw [hfound]; exact (valueAt_eq_some_iff h.rising).mpr hmem⟩
  next hnone =>
    obtain ⟨hlow, hhigh, hfree⟩ := lowestFree_spec hs
    refine ⟨?_, by rw [hnone]; exact hfree⟩
    simp only [bucketStart, bucketCount] at hlow hhigh
    omega

/-! ### ADD and REMOVE (R30, R32, R38) -/

/-- The table with a record in a slot (R30, R38). -/
def Cards.put (c : Cards) (slot : Nat) (r : CardRecord) : Cards :=
  { c with
    slots := putAt slot r c.slots
    entries := if (valueAt slot c.slots).isSome then c.entries else c.entries + 1
    checkValue := c.checkValue - ((valueAt slot c.slots).map recordCrc).getD 0 + recordCrc r }

/-- The table with a slot freed that held `r` (R32, R38). -/
def Cards.free (c : Cards) (slot : Nat) (r : CardRecord) : Cards :=
  { c with
    slots := freeAt slot c.slots
    entries := c.entries - 1
    checkValue := c.checkValue - recordCrc r }

/-- The law is kept by an ADD: the slot taken held the number, or no slot of the bucket did. -/
theorem Cards.SlotsLaw.put (h : c.SlotsLaw) (hs : c.slotFor r.number = some slot) : (c.put slot r).SlotsLaw := by
  obtain ⟨hbucket, hvalue⟩ := Cards.slotFor_spec h hs
  have hother : ∀ p ∈ c.slots, p.1 / 4 = slot / 4 → p.2.number = r.number → p.1 = slot := by
    intro p hp hsame hnumber
    have hfound := h.slotHolding_iff.mpr ⟨hp, hsame.trans hbucket, hnumber⟩
    rw [hfound] at hvalue
    have hmem := (valueAt_eq_some_iff h.rising).mp hvalue
    exact h.once p hp _ hmem hsame rfl
  refine ⟨h.rising.put slot r, fun p hp => ?_, fun p hp q hq hsame hnumber => ?_, ?_, ?_⟩
  · rcases h.rising.mem_putAt.mp hp with rfl | ⟨hp, -⟩
    · simp only [bucketCount]
      omega
    · exact h.range p hp
  · rcases h.rising.mem_putAt.mp hp with rfl | ⟨hp, hne⟩ <;> rcases h.rising.mem_putAt.mp hq with rfl | ⟨hq, hne'⟩
    · rfl
    · exact (hother q hq hsame.symm hnumber.symm).symm
    · exact hother p hp hsame hnumber
    · exact h.once p hp q hq hsame hnumber
  · simp only [Cards.put, h.rising.length_putAt, h.entries]
    split <;> rfl
  · simp only [Cards.put, h.rising.sum_putAt, h.checkValue]

/-- The law is kept by a REMOVE. -/
theorem Cards.SlotsLaw.free (h : c.SlotsLaw) (hmem : (slot, r) ∈ c.slots) : (c.free slot r).SlotsLaw := by
  refine ⟨h.rising.free slot, fun p hp => h.range p (mem_freeAt.mp hp).1,
    fun p hp q hq => h.once p (mem_freeAt.mp hp).1 q (mem_freeAt.mp hq).1, ?_, ?_⟩
  · have hlength := h.rising.length_freeAt hmem
    have hentries := h.entries
    simp only [Cards.free]
    omega
  · simp only [Cards.free, h.rising.sum_freeAt hmem, h.checkValue]

/-- After an ADD the lookup of its number answers the record, and that of every other number answers as before (R28, R30). -/
theorem Cards.SlotsLaw.lookup_put (h : c.SlotsLaw) (hp : c.phase ≠ .clearing) (hs : c.slotFor r.number = some slot) :
    (c.put slot r).lookup r.number = some r ∧
      ∀ number, number ≠ r.number → (c.put slot r).lookup number = c.lookup number := by
  obtain ⟨hbucket, hvalue⟩ := Cards.slotFor_spec h hs
  have hput := h.put hs
  refine ⟨(hput.lookup_iff hp).mpr ⟨slot, h.rising.mem_putAt.mpr (.inl rfl), hbucket, rfl⟩, fun number hne => ?_⟩
  refine Option.ext fun q => ?_
  rw [hput.lookup_iff hp, h.lookup_iff hp]
  refine exists_congr fun p => and_congr_left fun ⟨_, hq⟩ => ?_
  rw [Cards.put, h.rising.mem_putAt]
  constructor
  · rintro (heq | ⟨hmem, -⟩)
    · exact absurd (hq ▸ congrArg (fun x : Nat × CardRecord => x.2.number) heq) hne
    · exact hmem
  · refine fun hmem => .inr ⟨hmem, ?_⟩
    rintro rfl
    rw [(valueAt_eq_some_iff h.rising).mpr hmem] at hvalue
    obtain ⟨x, hx, rfl⟩ := Option.map_eq_some_iff.mp hvalue.symm
    exact hne (hq ▸ (slotHolding_some hx).2.2)

/-- The entry count after an ADD follows the lookup of its number (R30). -/
theorem Cards.SlotsLaw.entries_put (h : c.SlotsLaw) (hp : c.phase ≠ .clearing) (hs : c.slotFor number = some slot) :
    (c.put slot r).entries = c.entries + (if (c.lookup number).isSome then 0 else 1) := by
  rw [Cards.lookup, if_neg hp, ← (Cards.slotFor_spec h hs).2, Cards.put]
  split <;> rfl

/-- The check value after an ADD: the record that the lookup answered is taken out, and the new one added (R38). -/
theorem Cards.SlotsLaw.checkValue_put (h : c.SlotsLaw) (hp : c.phase ≠ .clearing) (hs : c.slotFor number = some slot) :
    (c.put slot r).checkValue = c.checkValue - ((c.lookup number).map recordCrc).getD 0 + recordCrc r := by
  rw [Cards.lookup, if_neg hp, ← (Cards.slotFor_spec h hs).2, Cards.put]

/-- The entry count after a REMOVE (R32). -/
theorem Cards.SlotsLaw.entries_free (h : c.SlotsLaw) (hmem : (slot, r) ∈ c.slots) : (c.free slot r).entries + 1 = c.entries := by
  have hlength := h.rising.length_freeAt hmem
  have hentries := h.entries
  simp only [Cards.free]
  omega

/-- After a REMOVE the lookup of its number answers absent, and that of every other number answers as before (R28, R32). -/
theorem Cards.SlotsLaw.lookup_free (h : c.SlotsLaw) (hp : c.phase ≠ .clearing)
    (hs : slotHolding c.slots number = some (slot, r)) :
    (c.free slot r).lookup number = none ∧
      ∀ other, other ≠ number → (c.free slot r).lookup other = c.lookup other := by
  obtain ⟨hmem, hbucket, hnumber⟩ := slotHolding_some hs
  have hfree := h.free hmem
  refine ⟨Option.eq_none_iff_forall_ne_some.mpr fun q hq => ?_, fun other hne => Option.ext fun q => ?_⟩
  · obtain ⟨p, hp, hsame, hq⟩ := (hfree.lookup_iff hp).mp hq
    obtain ⟨hp, hplace⟩ := mem_freeAt.mp hp
    exact hplace (h.once _ hp _ hmem (hsame.trans hbucket.symm) (hq.trans hnumber.symm))
  · rw [hfree.lookup_iff hp, h.lookup_iff hp]
    refine exists_congr fun p => and_congr_left fun ⟨_, hq⟩ => ?_
    rw [Cards.free, mem_freeAt]
    refine and_iff_left_of_imp fun hmem' hplace => hne ?_
    rw [← hq, ← hnumber]
    exact congrArg (fun x : Nat × CardRecord => x.2.number) (h.rising.eq_of_place hmem' hmem hplace)

/-! ### REVOKE ADD and REVOKE REMOVE (R35) -/

/-- The list with a number in a position (R35). -/
def Cards.revoke (c : Cards) (position : Nat) (number : CardNumber) : Cards :=
  { c with revoked := putAt position number c.revoked, revocations := c.revocations + 1 }

/-- The list with a position freed (R35). -/
def Cards.unrevoke (c : Cards) (position : Nat) : Cards :=
  { c with revoked := freeAt position c.revoked, revocations := c.revocations - 1 }

theorem any_revoked_iff {revoked : List (Nat × CardNumber)} :
    revoked.any (fun p => p.2 == number) = true ↔ ∃ p, (p, number) ∈ revoked := by
  simp

/-- A revocation lookup outside REVOKE CLEARING (R28). -/
theorem Cards.isRevoked_iff (hp : c.phase ≠ .revokeClearing) : c.isRevoked number = true ↔ ∃ p, (p, number) ∈ c.revoked := by
  rw [Cards.isRevoked, if_neg hp, any_revoked_iff]

/-- The law is kept by a REVOKE ADD of a number not held. -/
theorem Cards.RevokedLaw.revoke (h : c.RevokedLaw) (hn : ∀ p ∈ c.revoked, p.2 ≠ number) {position : Nat}
    (hs : lowestFree c.revoked 0 128 = some position) : (c.revoke position number).RevokedLaw := by
  obtain ⟨-, hrange, hfree⟩ := lowestFree_spec hs
  refine ⟨h.rising.put position number, fun p hp => ?_, fun p hp q hq hsame => ?_, ?_⟩
  · rcases h.rising.mem_putAt.mp hp with rfl | ⟨hp, -⟩
    · simpa [revocationPositions] using hrange
    · exact h.range p hp
  · rcases h.rising.mem_putAt.mp hp with rfl | ⟨hp, -⟩ <;> rcases h.rising.mem_putAt.mp hq with rfl | ⟨hq, -⟩
    · rfl
    · exact absurd hsame.symm (hn q hq)
    · exact absurd hsame (hn p hp)
    · exact h.once p hp q hq hsame
  · simp [Cards.revoke, h.rising.length_putAt, hfree, h.count]

/-- The count after a REVOKE REMOVE (R35). -/
theorem Cards.RevokedLaw.revocations_unrevoke (h : c.RevokedLaw) {position : Nat} (hmem : (position, number) ∈ c.revoked) :
    (c.unrevoke position).revocations + 1 = c.revocations := by
  have hlength := h.rising.length_freeAt hmem
  have hcount := h.count
  simp only [Cards.unrevoke]
  omega

/-- Under the law a search for a number held finds its one position. -/
theorem Cards.RevokedLaw.find (h : c.RevokedLaw) {position : Nat} (hmem : (position, number) ∈ c.revoked) :
    c.revoked.find? (fun p => p.2 == number) = some (position, number) := by
  cases hfound : c.revoked.find? (fun p => p.2 == number) with
  | none => exact absurd (beq_self_eq_true number) (List.find?_eq_none.mp hfound _ hmem)
  | some q =>
    have hq := List.mem_of_find?_eq_some hfound
    have hnumber : q.2 = number := by simpa using List.find?_some hfound
    rw [h.rising.eq_of_place hq hmem (h.once _ hq _ hmem hnumber)]

/-- The law is kept by a REVOKE REMOVE of a held position. -/
theorem Cards.RevokedLaw.unrevoke (h : c.RevokedLaw) {position : Nat} (hmem : (position, number) ∈ c.revoked) :
    (c.unrevoke position).RevokedLaw := by
  have hlength := h.rising.length_freeAt hmem
  have hcount := h.count
  refine ⟨h.rising.free position, fun p hp => h.range p (mem_freeAt.mp hp).1,
    fun p hp q hq => h.once p (mem_freeAt.mp hp).1 q (mem_freeAt.mp hq).1, ?_⟩
  simp only [Cards.unrevoke]
  omega

/-- After a REVOKE ADD its number stands on the list, and every other as before (R28, R35). -/
theorem Cards.RevokedLaw.isRevoked_revoke (h : c.RevokedLaw) (hp : c.phase ≠ .revokeClearing) {position : Nat}
    (hfree : valueAt position c.revoked = none) :
    (c.revoke position number).isRevoked number = true ∧
      ∀ other, other ≠ number → (c.revoke position number).isRevoked other = c.isRevoked other := by
  refine ⟨(Cards.isRevoked_iff (c := c.revoke position number) hp).mpr ⟨position, h.rising.mem_putAt.mpr (.inl rfl)⟩, fun other hne => ?_⟩
  rw [Bool.eq_iff_iff, Cards.isRevoked_iff (c := c.revoke position number) hp, Cards.isRevoked_iff (c := c) hp]
  refine exists_congr fun p => ?_
  rw [Cards.revoke, h.rising.mem_putAt]
  constructor
  · rintro (heq | ⟨hmem, -⟩)
    · exact absurd (congrArg Prod.snd heq) hne
    · exact hmem
  · exact fun hmem => .inr ⟨hmem, valueAt_eq_none_iff.mp hfree _ hmem⟩

/-- After a REVOKE REMOVE its number stands on the list no more, and every other as before (R28, R35). -/
theorem Cards.RevokedLaw.isRevoked_unrevoke (h : c.RevokedLaw) (hp : c.phase ≠ .revokeClearing) {position : Nat}
    (hmem : (position, number) ∈ c.revoked) :
    (c.unrevoke position).isRevoked number = false ∧
      ∀ other, other ≠ number → (c.unrevoke position).isRevoked other = c.isRevoked other := by
  refine ⟨Bool.eq_false_iff.mpr fun hr => ?_, fun other hne => ?_⟩
  · obtain ⟨p, hp⟩ := (Cards.isRevoked_iff (c := c.unrevoke position) hp).mp hr
    obtain ⟨hp, hplace⟩ := mem_freeAt.mp hp
    exact hplace (h.once _ hp _ hmem rfl)
  · rw [Bool.eq_iff_iff, Cards.isRevoked_iff (c := c.unrevoke position) hp, Cards.isRevoked_iff (c := c) hp]
    refine exists_congr fun p => ?_
    rw [Cards.unrevoke, mem_freeAt]
    refine and_iff_left_of_imp fun hmem' hplace => hne ?_
    exact congrArg Prod.snd (h.rising.eq_of_place hmem' hmem hplace)

end

end Sys2Proof.Machine
end

section
/-! What the card table's law speaks of, the card table and the unit phase: every other unit's operations leave it
as it is. -/

open Sys2Proof Sys2Proof.Machine

namespace Sys2Proof.Machine

/-- What the card table's law speaks of: the card table, and the unit phase. -/
def Node.tablePart (n : Node) : Cards × UnitPhase := (n.cards, n.control.phase)

theorem Node.tablePart_eq {n m : Node} (hc : m.cards = n.cards) (hp : m.control.phase = n.control.phase) :
    m.tablePart = n.tablePart := by
  rw [Node.tablePart, hc, hp, Node.tablePart]

@[simp] theorem Node.withNow_tablePart (n : Node) (x : Moment) : (n.withNow x).tablePart = n.tablePart := rfl
@[simp] theorem Node.withSounding_tablePart (n : Node) (x : Sounding) :
    (n.withSounding x).tablePart = n.tablePart := rfl
@[simp] theorem Node.withHatch_tablePart (n : Node) (x : Hatch) :
    (n.withHatch x).tablePart = n.tablePart := rfl
@[simp] theorem Node.withTally_tablePart (n : Node) (x : Tally) :
    (n.withTally x).tablePart = n.tablePart := rfl
@[simp] theorem Node.withClock_tablePart (n : Node) (x : Clock) :
    (n.withClock x).tablePart = n.tablePart := rfl
@[simp] theorem Node.withStore_tablePart (n : Node) (x : Store) :
    (n.withStore x).tablePart = n.tablePart := rfl
@[simp] theorem Node.withLog_tablePart (n : Node) (x : Log) : (n.withLog x).tablePart = n.tablePart := rfl
@[simp] theorem Node.withPress_tablePart (n : Node) (x : Press) :
    (n.withPress x).tablePart = n.tablePart := rfl
@[simp] theorem Node.withLine_tablePart (n : Node) (x : Line) : (n.withLine x).tablePart = n.tablePart := rfl
@[simp] theorem Node.withNeighbour_tablePart (n : Node) (x : Neighbour) :
    (n.withNeighbour x).tablePart = n.tablePart := rfl
@[simp] theorem Node.withCall_tablePart (n : Node) (x : Call) : (n.withCall x).tablePart = n.tablePart := rfl
@[simp] theorem Node.withRelay_tablePart (n : Node) (x : Relay) :
    (n.withRelay x).tablePart = n.tablePart := rfl
@[simp] theorem Node.withPower_tablePart (n : Node) (x : Power) :
    (n.withPower x).tablePart = n.tablePart := rfl
@[simp] theorem Node.reach_tablePart (n : Node) (t : Moment) : (n.reach t).tablePart = n.tablePart := rfl
@[simp] theorem Node.advance_tablePart (n : Node) (dt : Nat) : (n.advance dt).tablePart = n.tablePart := rfl
@[simp] theorem Node.withFlight_tablePart (n : Node) (f : Flight) :
    (n.withFlight f).tablePart = n.tablePart := rfl
@[simp] theorem Node.placeRow_tablePart (n : Node) (region : Region) (row : Nat) (bytes : List Byte) :
    (n.placeRow region row bytes).tablePart = n.tablePart := rfl
@[simp] theorem Node.enqueue_tablePart (n : Node) (owner : Owner) (t : Telegram) :
    (n.enqueue owner t).tablePart = n.tablePart := rfl

theorem Node.SameButOffers.tablePart {n m : Node} (h : n.SameButOffers m) : m.tablePart = n.tablePart :=
  Node.tablePart_eq h.cards h.phase

theorem Node.SameButTalk.tablePart {n m : Node} (h : n.SameButTalk m) : m.tablePart = n.tablePart :=
  Node.tablePart_eq h.cards h.phase

@[simp] theorem Node.offer_tablePart (n : Node) (owner : Owner) (t : Telegram) :
    (n.offer owner t).1.tablePart = n.tablePart := (n.sameButOffers_offer owner t).tablePart

@[simp] theorem Node.offerOnly_tablePart (n : Node) (owner : Owner) (t : Telegram) :
    (n.offerOnly owner t).tablePart = n.tablePart := (n.sameButOffers_offerOnly owner t).tablePart

@[simp] theorem Node.offerRedirect_tablePart (n : Node) (card : CardNumber) (v : View) :
    (n.offerRedirect card v).tablePart = n.tablePart := n.offerOnly_tablePart _ _

@[simp] theorem Node.harvestFinished_tablePart (n : Node) : n.harvestFinished.tablePart = n.tablePart :=
  n.sameButOffers_harvestFinished.tablePart

@[simp] theorem Node.answerFinished_tablePart (n : Node) : n.answerFinished.tablePart = n.tablePart :=
  n.sameButOffers_answerFinished.tablePart

@[simp] theorem Node.offerNotice_tablePart (n : Node) : n.offerNotice.tablePart = n.tablePart :=
  n.offerNotice_talk.tablePart

@[simp] theorem Node.noticeCheck_tablePart (n : Node) : n.noticeCheck.tablePart = n.tablePart :=
  n.noticeCheck_talk.tablePart

@[simp] theorem Node.noticeStation_tablePart (n : Node) : n.noticeStation.tablePart = n.tablePart :=
  n.noticeStation_talk.tablePart

@[simp] theorem Node.setCall_tablePart (n : Node) (c : Call) : (n.setCall c).tablePart = n.tablePart :=
  (n.setCall_talk c).tablePart

@[simp] theorem Node.closeCall_tablePart (n : Node) (cause : Nat) :
    (n.closeCall cause).tablePart = n.tablePart :=
  (n.closeCall_talk cause).tablePart

@[simp] theorem Node.raiseCall_tablePart (n : Node) : n.raiseCall.tablePart = n.tablePart :=
  n.raiseCall_spec.1.tablePart

theorem Node.taking_tablePart (n : Node) (kind : Kind) {f : Node → Received → Node}
    (hf : ∀ n r, (f n r).tablePart = n.tablePart) : (n.taking kind f).tablePart = n.tablePart := by
  rcases n.taking_cases kind f with h | ⟨r, -, -, h⟩ <;> rw [h]
  rw [hf]
  rfl

@[simp] theorem Node.withControl_tablePart {n : Node} {x : Control} (h : x.phase = n.control.phase) :
    (n.withControl x).tablePart = n.tablePart := Node.tablePart_eq rfl h

@[simp] theorem Node.withCards_tablePart (n : Node) (x : Cards) :
    (n.withCards x).tablePart = (x, n.control.phase) := rfl

@[simp] theorem Node.refuse_tablePart (n : Node) (code : Nat) : (n.refuse code).tablePart = n.tablePart := rfl
@[simp] theorem Node.refuseEarly_tablePart (n : Node) (card : CardNumber) (code : Nat) :
    (n.refuseEarly card code).tablePart = n.tablePart := rfl
@[simp] theorem Node.dropExpected_tablePart (n : Node) (card : CardNumber) :
    (n.dropExpected card).tablePart = n.tablePart := rfl
@[simp] theorem Node.disown_tablePart (n : Node) (owner : Owner) (p : Producer) :
    (n.disown owner p).tablePart = n.tablePart := rfl
@[simp] theorem Node.endRebuild_tablePart (n : Node) : n.endRebuild.tablePart = n.tablePart := rfl
@[simp] theorem Node.countUnknownKind_tablePart (n : Node) : n.countUnknownKind.tablePart = n.tablePart := rfl
@[simp] theorem Node.countDepotFailure_tablePart (n : Node) :
    n.countDepotFailure.tablePart = n.tablePart := rfl
@[simp] theorem Node.countCheckFailure_tablePart (n : Node) :
    n.countCheckFailure.tablePart = n.tablePart := rfl
@[simp] theorem Node.addressClash_tablePart (n : Node) : n.addressClash.tablePart = n.tablePart := rfl
@[simp] theorem Node.waitAgain_tablePart (n : Node) (e : QueueEntry) :
    (n.waitAgain e).tablePart = n.tablePart := rfl
@[simp] theorem Node.requestSent_tablePart (n : Node) (dest tag : Nat) :
    (n.requestSent dest tag).tablePart = n.tablePart := rfl
/-- Steps that each leave what the law speaks of leave it together. -/
theorem foldl_tablePart {α : Type} {f : Node → α → Node} (hf : ∀ n x, (f n x).tablePart = n.tablePart) (xs : List α)
    (n : Node) : (xs.foldl f n).tablePart = n.tablePart := by
  induction xs generalizing n with
  | nil => rfl
  | cons x rest ih => exact (ih (f n x)).trans (hf n x)

@[simp] theorem Node.takeEarly_tablePart (n : Node) : n.takeEarly.tablePart = n.tablePart := by
  unfold Node.takeEarly
  rw [foldl_tablePart fun _ _ => Node.withLog_tablePart _ _]
  rfl

/-! ### Telling owners and the transmit queue -/

@[simp] theorem Node.draw_tablePart (n : Node) (k : Nat) : (n.draw k).1.tablePart = n.tablePart := by
  simp [Node.draw]

/-! ### The call for the ferry and the neighbour lines -/

@[simp] theorem Node.callOffer_tablePart (n : Node) : n.callOffer.tablePart = n.tablePart := by
  unfold Node.callOffer
  (repeat' split) <;> simp

@[simp] theorem Node.newCall_tablePart (n : Node) (lead : Option Lead) :
    (n.newCall lead).tablePart = n.tablePart := by
  simp [Node.newCall]

@[simp] theorem Node.missedRound_tablePart (n : Node) : n.missedRound.tablePart = n.tablePart := by
  unfold Node.missedRound
  (repeat' split) <;> simp

@[simp] theorem Node.scheduleCall_tablePart (n : Node) (day hour : Nat) :
    (n.scheduleCall day hour).tablePart = n.tablePart := by
  simp [Node.scheduleCall]

@[simp] theorem Node.declineCall_tablePart (n : Node) : n.declineCall.tablePart = n.tablePart := by
  simp [Node.declineCall]

@[simp] theorem Node.resendExpiry_tablePart (n : Node) : n.resendExpiry.tablePart = n.tablePart := by
  unfold Node.resendExpiry
  (repeat' split) <;> simp

@[simp] theorem Node.lapseExpiry_tablePart (n : Node) : n.lapseExpiry.tablePart = n.tablePart := by
  unfold Node.lapseExpiry
  (repeat' split) <;> simp

@[simp] theorem Node.holdOffExpiry_tablePart (n : Node) : n.holdOffExpiry.tablePart = n.tablePart := by
  unfold Node.holdOffExpiry
  (repeat' split) <;> simp

@[simp] theorem Node.countStale_tablePart (n : Node) : n.countStale.tablePart = n.tablePart := by
  simp [Node.countStale]

@[simp] theorem Node.hearAnswer_tablePart (n : Node) (a : CallAnswer) :
    (n.hearAnswer a).tablePart = n.tablePart := by
  unfold Node.hearAnswer
  (repeat' split) <;> simp

@[simp] theorem Node.hearCall_tablePart (n : Node) (r : Received) :
    (n.hearCall r).tablePart = n.tablePart := by
  unfold Node.hearCall
  (repeat' split) <;> simp

@[simp] theorem Node.hearJoin_tablePart (n : Node) (r : Received) :
    (n.hearJoin r).tablePart = n.tablePart := by
  unfold Node.hearJoin
  (repeat' split) <;> simp

/-! ### The sounding -/

@[simp] theorem Node.armSounding_tablePart (n : Node) (delay : Nat) :
    (n.armSounding delay).tablePart = n.tablePart := by
  simp [Node.armSounding]

@[simp] theorem Node.trySounding_tablePart (n : Node) (reading : Option Int) :
    (n.trySounding reading).tablePart = n.tablePart := by
  unfold Node.trySounding
  (repeat' split) <;> simp

@[simp] theorem Node.abandonSounding_tablePart (n : Node) : n.abandonSounding.tablePart = n.tablePart := by
  unfold Node.abandonSounding
  (repeat' split) <;> simp

@[simp] theorem Node.soundingUsed_tablePart (n : Node) (repeated : Bool) (median fill : Nat) (unsteady : Bool) :
    (n.soundingUsed repeated median fill unsteady).tablePart = n.tablePart := by
  simp [Node.soundingUsed]

@[simp] theorem Node.soundingFailed_tablePart (n : Node) : n.soundingFailed.tablePart = n.tablePart := by
  simp [Node.soundingFailed]

@[simp] theorem Node.depositEstimate_tablePart (n : Node) : n.depositEstimate.tablePart = n.tablePart := by
  unfold Node.depositEstimate
  (repeat' split) <;> simp

@[simp] theorem Node.liftFill_tablePart (n : Node) : n.liftFill.tablePart = n.tablePart := by
  unfold Node.liftFill
  (repeat' split) <;> simp

@[simp] theorem Node.soundingDue_tablePart (n : Node) (reading : Option Int) :
    (n.soundingDue reading).tablePart = n.tablePart := by
  unfold Node.soundingDue
  (repeat' split) <;> simp

@[simp] theorem Node.startSlot_tablePart (n : Node) (f : Flight) :
    (n.startSlot f).tablePart = n.tablePart := by
  unfold Node.startSlot
  (repeat' split) <;> simp

@[simp] theorem Node.burstEnd_tablePart (n : Node) (f : Flight) (sl : PingSlot) :
    (n.burstEnd f sl).tablePart = n.tablePart := by
  unfold Node.burstEnd
  (repeat' split) <;> simp

@[simp] theorem Node.blankingEnd_tablePart (n : Node) (f : Flight) (sl : PingSlot) :
    (n.blankingEnd f sl).tablePart = n.tablePart := by
  unfold Node.blankingEnd
  (repeat' split) <;> simp

@[simp] theorem Node.echoEdge_tablePart (n : Node) (f : Flight) (sl : PingSlot) :
    (n.echoEdge f sl).tablePart = n.tablePart := by
  unfold Node.echoEdge
  (repeat' split) <;> simp

@[simp] theorem Node.windowEnd_tablePart (n : Node) (f : Flight) (sl : PingSlot) :
    (n.windowEnd f sl).tablePart = n.tablePart := by
  unfold Node.windowEnd
  (repeat' split) <;> simp

@[simp] theorem Node.takeEvaluation_tablePart (n : Node) (repeated : Bool) (e : Evaluation) :
    (n.takeEvaluation repeated e).tablePart = n.tablePart := by
  unfold Node.takeEvaluation
  (repeat' split) <;> simp

@[simp] theorem Node.periodicExpiry_tablePart (n : Node) : n.periodicExpiry.tablePart = n.tablePart := by
  unfold Node.periodicExpiry
  (repeat' split) <;> simp

/-! ### The press -/

@[simp] theorem Node.startForward_tablePart (n : Node) : n.startForward.tablePart = n.tablePart := by
  unfold Node.startForward
  dsimp only
  split <;> simp

@[simp] theorem Node.resumePress_tablePart (n : Node) : n.resumePress.tablePart = n.tablePart := by
  unfold Node.resumePress
  (repeat' split) <;> simp

@[simp] theorem Node.startRetry_tablePart (n : Node) : n.startRetry.tablePart = n.tablePart := by
  simp [Node.startRetry]

@[simp] theorem Node.claimDropped_tablePart (n : Node) : n.claimDropped.tablePart = n.tablePart := by
  unfold Node.claimDropped
  (repeat' split) <;> simp

@[simp] theorem Node.releaseClaim_tablePart (n : Node) : n.releaseClaim.tablePart = n.tablePart := by
  simp [Node.releaseClaim]

@[simp] theorem Node.pressTrigger_tablePart (n : Node) : n.pressTrigger.tablePart = n.tablePart := by
  unfold Node.pressTrigger
  dsimp only
  (repeat' split) <;> simp

@[simp] theorem Node.grantClaim_tablePart (n : Node) (supplyLow : Bool) :
    (n.grantClaim supplyLow).tablePart = n.tablePart := by
  unfold Node.grantClaim
  (repeat' split) <;> simp

@[simp] theorem Node.judgeClaim_tablePart (n : Node) (supplyLow : Bool) :
    (n.judgeClaim supplyLow).tablePart = n.tablePart := by
  unfold Node.judgeClaim
  (repeat' split) <;> simp

@[simp] theorem Node.claimSent_tablePart (n : Node) (supplyLow : Bool) :
    (n.claimSent supplyLow).tablePart = n.tablePart := by
  unfold Node.claimSent
  (repeat' split) <;> simp

/-! ### The deposit log -/

@[simp] theorem Node.requestRecord_tablePart (n : Node) (body : RecordBody) (fill : Option Nat) :
    (n.requestRecord body fill).tablePart = n.tablePart := by
  unfold Node.requestRecord
  (repeat' split) <;> simp

@[simp] theorem Node.enterDeposit_tablePart (n : Node) (e : LogEntry) :
    (n.enterDeposit e).tablePart = n.tablePart := by
  simp [Node.enterDeposit]

@[simp] theorem Node.countPressCycle_tablePart (n : Node) : n.countPressCycle.tablePart = n.tablePart := by
  simp [Node.countPressCycle]

@[simp] theorem Node.placeLifetime_tablePart (n : Node) (bytes : List Byte) :
    (n.placeLifetime bytes).tablePart = n.tablePart := by
  unfold Node.placeLifetime
  (repeat' split) <;> simp

@[simp] theorem Node.placeAccounting_tablePart (n : Node) : n.placeAccounting.tablePart = n.tablePart := by
  unfold Node.placeAccounting
  (repeat' split) <;> simp

@[simp] theorem Node.placeWaiting_tablePart (n : Node) : n.placeWaiting.tablePart = n.tablePart := by
  unfold Node.placeWaiting
  (repeat' split) <;> simp

@[simp] theorem Node.freeRecords_tablePart (n : Node) (freed kept : List LogRecord) :
    (n.freeRecords freed kept).tablePart = n.tablePart := by
  unfold Node.freeRecords
  (repeat' split) <;> simp

@[simp] theorem Node.releaseFreed_tablePart (n : Node) (taken : Bool) :
    (n.releaseFreed taken).tablePart = n.tablePart := by
  unfold Node.releaseFreed
  (repeat' split) <;> simp

@[simp] theorem Node.giveFreed_tablePart (n : Node) (taken : Bool) :
    (n.giveFreed taken).tablePart = n.tablePart := by
  unfold Node.giveFreed
  (repeat' split) <;> simp

@[simp] theorem Node.commitRow_tablePart (n : Node) (w : RowWrite) :
    (n.commitRow w).tablePart = n.tablePart := by
  unfold Node.commitRow
  dsimp only
  split <;> simp

@[simp] theorem Node.appendRecord_tablePart (n : Node) (e : LogEntry) :
    (n.appendRecord e).tablePart = n.tablePart := by
  simp [Node.appendRecord]

@[simp] theorem Node.overflowItem_tablePart (n : Node) (e : LogEntry) :
    (n.overflowItem e).tablePart = n.tablePart := by
  unfold Node.overflowItem
  (repeat' split) <;> simp

@[simp] theorem Node.appendOldest_tablePart (n : Node) : n.appendOldest.tablePart = n.tablePart := by
  unfold Node.appendOldest
  dsimp only
  (repeat' split) <;> simp

@[simp] theorem Node.writeAccounting_tablePart (n : Node) : n.writeAccounting.tablePart = n.tablePart := by
  unfold Node.writeAccounting
  (repeat' split) <;> simp

@[simp] theorem Node.writeMark_tablePart (n : Node) : n.writeMark.tablePart = n.tablePart := by
  unfold Node.writeMark
  (repeat' split) <;> simp

@[simp] theorem Node.restartRecord_tablePart (n : Node) : n.restartRecord.tablePart = n.tablePart := by
  unfold Node.restartRecord
  (repeat' split) <;> simp

@[simp] theorem Node.takeScan_tablePart (n : Node) (found : ScanResult) :
    (n.takeScan found).tablePart = n.tablePart := by
  simp [Node.takeScan]

@[simp] theorem Node.confirm_tablePart (n : Node) (u : Sequence) : (n.confirm u).tablePart = n.tablePart := by
  simp [Node.confirm]

/-! ### The hatch and the tally -/

@[simp] theorem Node.setStation_tablePart (n : Node) (state : StationState) :
    (n.setStation state).tablePart = n.tablePart := by
  unfold Node.setStation
  (repeat' split) <;> simp

@[simp] theorem Node.evaluateStart_tablePart (n : Node) : n.evaluateStart.tablePart = n.tablePart := by
  unfold Node.evaluateStart
  (repeat' split) <;> simp

@[simp] theorem Node.outOfService_tablePart (n : Node) : n.outOfService.tablePart = n.tablePart := by
  unfold Node.outOfService
  (repeat' split) <;> simp

@[simp] theorem Node.backInService_tablePart (n : Node) : n.backInService.tablePart = n.tablePart := by
  unfold Node.backInService
  (repeat' split) <;> simp

@[simp] theorem Node.beginService_tablePart (n : Node) (card : CardNumber) :
    (n.beginService card).tablePart = n.tablePart := by
  unfold Node.beginService
  dsimp only
  split <;> simp

@[simp] theorem Node.endService_tablePart (n : Node) : n.endService.tablePart = n.tablePart := by
  unfold Node.endService
  dsimp only
  split <;> simp

@[simp] theorem Node.countPressDeposit_tablePart (n : Node) :
    n.countPressDeposit.tablePart = n.tablePart := by
  unfold Node.countPressDeposit
  (repeat' split) <;> simp

@[simp] theorem Node.completeDeposit_tablePart (n : Node) : n.completeDeposit.tablePart = n.tablePart := by
  unfold Node.completeDeposit
  (repeat' split) <;> simp

@[simp] theorem Node.deferredToWindow_tablePart (n : Node) : n.deferredToWindow.tablePart = n.tablePart := by
  unfold Node.deferredToWindow
  (repeat' split) <;> simp

@[simp] theorem Node.endCycle_tablePart (n : Node) : n.endCycle.tablePart = n.tablePart := by
  simp [Node.endCycle]

@[simp] theorem Node.reachHome_tablePart (n : Node) (reading : Option Int) :
    (n.reachHome reading).tablePart = n.tablePart := by
  unfold Node.reachHome
  dsimp only
  split <;> simp

@[simp] theorem Node.pressFault_tablePart (n : Node) : n.pressFault.tablePart = n.tablePart := by
  unfold Node.pressFault
  dsimp only
  split <;> simp

@[simp] theorem Node.passResult_tablePart (n : Node) : n.passResult.tablePart = n.tablePart := by
  simp [Node.passResult]

@[simp] theorem Node.soundingEnd_tablePart (n : Node) : n.soundingEnd.tablePart = n.tablePart := by
  unfold Node.soundingEnd
  (repeat' split) <;> simp

@[simp] theorem Node.redirectCard_tablePart (n : Node) (card : CardNumber) :
    (n.redirectCard card).tablePart = n.tablePart := by
  unfold Node.redirectCard
  (repeat' split) <;> simp

@[simp] theorem Node.acceptCard_tablePart (n : Node) (a : Acceptance) :
    (n.acceptCard a).tablePart = n.tablePart := by
  unfold Node.acceptCard
  (repeat' split) <;> simp

@[simp] theorem Node.judgeDeposit_tablePart (n : Node) (r : CardRecord) :
    (n.judgeDeposit r).tablePart = n.tablePart := by
  unfold Node.judgeDeposit
  dsimp only
  (repeat' split) <;> simp

@[simp] theorem Node.presentAgain_tablePart (n : Node) : n.presentAgain.tablePart = n.tablePart := by
  unfold Node.presentAgain
  (repeat' split) <;> simp

@[simp] theorem Node.startRecovery_tablePart (n : Node) : n.startRecovery.tablePart = n.tablePart := by
  unfold Node.startRecovery
  (repeat' split) <;> simp

@[simp] theorem Node.crewWindow_tablePart (n : Node) (card : CardNumber) :
    (n.crewWindow card).tablePart = n.tablePart := by
  unfold Node.crewWindow
  (repeat' split) <;> simp

@[simp] theorem Node.serviceHandling_tablePart (n : Node) (card : CardNumber) :
    (n.serviceHandling card).tablePart = n.tablePart := by
  unfold Node.serviceHandling
  dsimp only
  split <;> simp

@[simp] theorem Node.judgeCard_tablePart (n : Node) (card : CardNumber) :
    (n.judgeCard card).tablePart = n.tablePart := by
  unfold Node.judgeCard
  (repeat' split) <;> simp

@[simp] theorem Node.evaluateCard_tablePart (n : Node) (card : CardNumber) :
    (n.evaluateCard card).tablePart = n.tablePart := by
  unfold Node.evaluateCard
  (repeat' split) <;> simp

@[simp] theorem Node.cardRead_tablePart (n : Node) (card : CardNumber) :
    (n.cardRead card).tablePart = n.tablePart := by
  unfold Node.cardRead
  dsimp only
  (repeat' split) <;> simp

@[simp] theorem Node.windowExpiry_tablePart (n : Node) : n.windowExpiry.tablePart = n.tablePart := by
  unfold Node.windowExpiry
  (repeat' split) <;> simp

@[simp] theorem Node.pullInEnd_tablePart (n : Node) : n.pullInEnd.tablePart = n.tablePart := by
  unfold Node.pullInEnd
  (repeat' split) <;> simp

@[simp] theorem Node.deferredExpiry_tablePart (n : Node) : n.deferredExpiry.tablePart = n.tablePart := by
  unfold Node.deferredExpiry
  (repeat' split) <;> simp

@[simp] theorem Node.serviceExpiry_tablePart (n : Node) : n.serviceExpiry.tablePart = n.tablePart := by
  unfold Node.serviceExpiry
  (repeat' split) <;> simp

@[simp] theorem Node.indicationExpiry_tablePart (n : Node) : n.indicationExpiry.tablePart = n.tablePart := by
  unfold Node.indicationExpiry
  (repeat' split) <;> simp

@[simp] theorem Node.toneEnd_tablePart (n : Node) : n.toneEnd.tablePart = n.tablePart := by
  unfold Node.toneEnd
  (repeat' split) <;> simp

@[simp] theorem Node.interruptPress_tablePart (n : Node) : n.interruptPress.tablePart = n.tablePart := by
  unfold Node.interruptPress
  (repeat' split) <;> simp

@[simp] theorem Node.hatchSettles_tablePart (n : Node) (isOpen : Bool) (reading : Option Int) :
    (n.hatchSettles isOpen reading).tablePart = n.tablePart := by
  unfold Node.hatchSettles
  (repeat' split) <;> simp

@[simp] theorem Node.forcedOpening_tablePart (n : Node) : n.forcedOpening.tablePart = n.tablePart := by
  simp [Node.forcedOpening]

@[simp] theorem Node.openByPhase_tablePart (n : Node) : n.openByPhase.tablePart = n.tablePart := by
  unfold Node.openByPhase
  (repeat' split) <;> simp

@[simp] theorem Node.hatchOpens_tablePart (n : Node) : n.hatchOpens.tablePart = n.tablePart := by
  unfold Node.hatchOpens
  (repeat' split) <;> simp

@[simp] theorem Node.closeByPhase_tablePart (n : Node) : n.closeByPhase.tablePart = n.tablePart := by
  unfold Node.closeByPhase
  (repeat' split) <;> simp

@[simp] theorem Node.hatchCloses_tablePart (n : Node) (reading : Option Int) :
    (n.hatchCloses reading).tablePart = n.tablePart := by
  unfold Node.hatchCloses
  (repeat' split) <;> simp

@[simp] theorem Node.hatchSticks_tablePart (n : Node) : n.hatchSticks.tablePart = n.tablePart := by
  unfold Node.hatchSticks
  (repeat' split) <;> simp

@[simp] theorem Node.liftSettles_tablePart (n : Node) (isLifted : Bool) (reading : Option Int) :
    (n.liftSettles isLifted reading).tablePart = n.tablePart := by
  unfold Node.liftSettles
  (repeat' split) <;> simp

@[simp] theorem Node.liftByPhase_tablePart (n : Node) : n.liftByPhase.tablePart = n.tablePart := by
  unfold Node.liftByPhase
  (repeat' split) <;> simp

@[simp] theorem Node.liftCall_tablePart (n : Node) : n.liftCall.tablePart = n.tablePart := by
  unfold Node.liftCall
  (repeat' split) <;> simp

@[simp] theorem Node.lifts_tablePart (n : Node) : n.lifts.tablePart = n.tablePart := by
  unfold Node.lifts
  (repeat' split) <;> simp

@[simp] theorem Node.seats_tablePart (n : Node) (reading : Option Int) :
    (n.seats reading).tablePart = n.tablePart := by
  unfold Node.seats
  (repeat' split) <;> simp

/-! ### The clock -/

@[simp] theorem Node.rollover_tablePart (n : Node) (day : Nat) :
    (n.rollover day).tablePart = n.tablePart := by
  simp [Node.rollover]

@[simp] theorem Node.clockSecond_tablePart (n : Node) : n.clockSecond.tablePart = n.tablePart := by
  unfold Node.clockSecond
  dsimp only
  (repeat' split) <;> simp

@[simp] theorem Node.takeTime_tablePart (n : Node) (day seconds : Nat) :
    (n.takeTime day seconds).tablePart = n.tablePart := by
  unfold Node.takeTime
  dsimp only
  (repeat' split) <;> simp

@[simp] theorem Node.hearTally_tablePart (n : Node) (r : Received) :
    (n.hearTally r).tablePart = n.tablePart := by
  unfold Node.hearTally
  (repeat' split) <;> simp

@[simp] theorem Node.hearTime_tablePart (n : Node) (r : Received) :
    (n.hearTime r).tablePart = n.tablePart := by
  unfold Node.hearTime
  (repeat' split) <;> simp

/-! ### Status and requests -/

@[simp] theorem Node.buildHarvest_tablePart (n : Node) : n.buildHarvest.tablePart = n.tablePart := by
  unfold Node.buildHarvest
  (repeat' split) <;> simp

@[simp] theorem Node.buildStatus_tablePart (n : Node) : n.buildStatus.tablePart = n.tablePart := by
  unfold Node.buildStatus
  (repeat' split) <;> rfl

@[simp] theorem Node.produce_tablePart (n : Node) (p : Producer) : (n.produce p).tablePart = n.tablePart := by
  unfold Node.produce
  (repeat' split) <;> simp

@[simp] theorem Node.offerClass3_tablePart (n : Node) (p : Producer) :
    (n.offerClass3 p).tablePart = n.tablePart := by
  unfold Node.offerClass3
  (repeat' split) <;> simp

@[simp] theorem Node.admitWaiting_tablePart (n : Node) : n.admitWaiting.tablePart = n.tablePart := by
  unfold Node.admitWaiting
  (repeat' split) <;> simp

@[simp] theorem Node.requestStatus_tablePart (n : Node) (tag : Nat) :
    (n.requestStatus tag).tablePart = n.tablePart := by
  unfold Node.requestStatus
  (repeat' split) <;> rfl

@[simp] theorem Node.fixHarvest_tablePart (n : Node) (tag : Nat) (f : Sequence) (m : Nat) :
    (n.fixHarvest tag f m).tablePart = n.tablePart := by
  simp [Node.fixHarvest]

/-! ### The relay and the depot -/

@[simp] theorem Node.toDepot_tablePart (n : Node) (t : Telegram) : (n.toDepot t).tablePart = n.tablePart := by
  unfold Node.toDepot
  (repeat' split) <;> simp

@[simp] theorem Node.noAnswer_tablePart (n : Node) (o : Outstanding) :
    (n.noAnswer o).tablePart = n.tablePart := by
  simp [Node.noAnswer]

@[simp] theorem Node.matchRequest_tablePart (n : Node) (t : Telegram) :
    (n.matchRequest t).tablePart = n.tablePart := by
  unfold Node.matchRequest
  (repeat' split) <;> simp

@[simp] theorem Node.forwardToDepot_tablePart (n : Node) (t : Telegram) :
    (n.forwardToDepot t).tablePart = n.tablePart := by
  unfold Node.forwardToDepot
  (repeat' split) <;> simp

@[simp] theorem Node.setRelayClock_tablePart (n : Node) (t : Telegram) :
    (n.setRelayClock t).tablePart = n.tablePart := by
  unfold Node.setRelayClock
  (repeat' split) <;> simp

@[simp] theorem Node.answerRelayStatus_tablePart (n : Node) (tag : Nat) :
    (n.answerRelayStatus tag).tablePart = n.tablePart :=
  Node.toDepot_tablePart _ _

@[simp] theorem Node.receive_tablePart (n : Node) (t : Telegram) : (n.receive t).tablePart = n.tablePart := by
  unfold Node.receive
  (repeat' split) <;> simp

@[simp] theorem Node.relayOwn_tablePart (n : Node) (t : Telegram) :
    (n.relayOwn t).tablePart = n.tablePart := by
  unfold Node.relayOwn
  (repeat' split) <;> simp

@[simp] theorem Node.relayTake_tablePart (n : Node) (t : Telegram) :
    (n.relayTake t).tablePart = n.tablePart := by
  unfold Node.relayTake
  (repeat' split) <;> simp

@[simp] theorem Node.fromDepot_tablePart (n : Node) (t : Telegram) :
    (n.fromDepot t).tablePart = n.tablePart := by
  unfold Node.fromDepot
  (repeat' split) <;> simp

@[simp] theorem Node.huntDepot_tablePart (n : Node) : n.huntDepot.tablePart = n.tablePart := by
  simp [Node.huntDepot]

@[simp] theorem Node.discardFrame_tablePart (n : Node) : n.discardFrame.tablePart = n.tablePart := by
  simp [Node.discardFrame]

@[simp] theorem Node.depotTelegram_tablePart (n : Node) (bytes : List Byte) :
    (n.depotTelegram bytes).tablePart = n.tablePart := by
  unfold Node.depotTelegram
  (repeat' split) <;> simp

@[simp] theorem Node.depotChar_tablePart (n : Node) (c : HeardChar) :
    (n.depotChar c).tablePart = n.tablePart := by
  unfold Node.depotChar
  (repeat' split) <;> simp

@[simp] theorem Node.dropStaleFrame_tablePart (n : Node) : n.dropStaleFrame.tablePart = n.tablePart := by
  unfold Node.dropStaleFrame
  (repeat' split) <;> simp

@[simp] theorem Node.createRequest_tablePart (n : Node) (dest tag : Nat) (kind : Kind) :
    (n.createRequest dest tag kind).tablePart = n.tablePart := by
  unfold Node.createRequest
  dsimp only
  (repeat' split) <;> simp

@[simp] theorem Node.requestFails_tablePart (n : Node) (o : Outstanding) :
    (n.requestFails o).tablePart = n.tablePart := by
  simp [Node.requestFails]

@[simp] theorem Node.requestDropped_tablePart (n : Node) (dest tag : Nat) :
    (n.requestDropped dest tag).tablePart = n.tablePart := by
  unfold Node.requestDropped
  (repeat' split) <;> simp

@[simp] theorem Node.offerFromDepot_tablePart (n : Node) : n.offerFromDepot.tablePart = n.tablePart := by
  unfold Node.offerFromDepot
  dsimp only
  (repeat' split) <;> simp

@[simp] theorem Node.frameTimeout_tablePart (n : Node) : n.frameTimeout.tablePart = n.tablePart := by
  unfold Node.frameTimeout
  (repeat' split) <;> simp

@[simp] theorem Node.beginFrame_tablePart (n : Node) (cts : Bool) :
    (n.beginFrame cts).tablePart = n.tablePart := by
  unfold Node.beginFrame
  (repeat' split) <;> simp

@[simp] theorem Node.endFrame_tablePart (n : Node) : n.endFrame.tablePart = n.tablePart := by
  unfold Node.endFrame
  (repeat' split) <;> simp

@[simp] theorem Node.answerExpiry_tablePart (n : Node) : n.answerExpiry.tablePart = n.tablePart := by
  unfold Node.answerExpiry
  (repeat' split) <;> simp

@[simp] theorem Node.originate_tablePart (n : Node) : n.originate.tablePart = n.tablePart := by
  unfold Node.originate
  (repeat' split) <;> simp

/-! ### The bus line -/

@[simp] theorem Node.receptionFails_tablePart (n : Node) : n.receptionFails.tablePart = n.tablePart := by
  unfold Node.receptionFails
  (repeat' split) <;> simp

@[simp] theorem Node.fixPolarity_tablePart (n : Node) (p : Polarity) :
    (n.fixPolarity p).tablePart = n.tablePart := by
  simp [Node.fixPolarity]

@[simp] theorem Node.enterProvisional_tablePart (n : Node) : n.enterProvisional.tablePart = n.tablePart := by
  simp [Node.enterProvisional]

@[simp] theorem Node.takeCandidate_tablePart (n : Node) : n.takeCandidate.tablePart = n.tablePart := by
  unfold Node.takeCandidate
  dsimp only
  (repeat' split) <;> simp

@[simp] theorem Node.lineIdle_tablePart (n : Node) : n.lineIdle.tablePart = n.tablePart := by
  unfold Node.lineIdle
  (repeat' split) <;> simp

@[simp] theorem Node.receptionBegins_tablePart (n : Node) : n.receptionBegins.tablePart = n.tablePart := by
  unfold Node.receptionBegins
  (repeat' split) <;> simp

@[simp] theorem Node.beginSending_tablePart (n : Node) (age : Nat) (taken : Telegram) :
    (n.beginSending age taken).tablePart = n.tablePart := by
  unfold Node.beginSending
  (repeat' split) <;> simp

@[simp] theorem Node.tellDropped_tablePart (n : Node) (e : QueueEntry) :
    (n.tellDropped e).tablePart = n.tablePart := by
  unfold Node.tellDropped
  (repeat' split) <;> simp

@[simp] theorem Node.tellSent_tablePart (n : Node) (e : QueueEntry) (supplyLow : Bool) :
    (n.tellSent e supplyLow).tablePart = n.tablePart := by
  unfold Node.tellSent
  (repeat' split) <;> simp

@[simp] theorem Node.leaveQueue_tablePart (n : Node) (e : QueueEntry) :
    (n.leaveQueue e).tablePart = n.tablePart := by
  simp [Node.leaveQueue]

@[simp] theorem Node.dropCollided_tablePart (n : Node) (e : QueueEntry) :
    (n.dropCollided e).tablePart = n.tablePart := by
  simp [Node.dropCollided]

@[simp] theorem Node.collide_tablePart (n : Node) : n.collide.tablePart = n.tablePart := by
  unfold Node.collide
  dsimp only
  (repeat' split) <;> simp

@[simp] theorem Node.sent_tablePart (n : Node) (supplyLow : Bool) :
    (n.sent supplyLow).tablePart = n.tablePart := by
  unfold Node.sent
  (repeat' split) <;> simp

@[simp] theorem Node.dispatch_tablePart (n : Node) (t : Telegram) :
    (n.dispatch t).tablePart = n.tablePart := by
  unfold Node.dispatch
  (repeat' split) <;> simp

@[simp] theorem Node.takeGood_tablePart (n : Node) (bytes : List Byte) :
    (n.takeGood bytes).tablePart = n.tablePart := by
  unfold Node.takeGood
  (repeat' split) <;> simp

@[simp] theorem Node.takeAdopted_tablePart (n : Node) (good : Option (List Byte)) :
    (n.takeAdopted good).tablePart = n.tablePart := by
  unfold Node.takeAdopted
  (repeat' split) <;> simp

@[simp] theorem Node.takeUndetected_tablePart (n : Node) (normal inverted : Option (List Byte)) :
    (n.takeUndetected normal inverted).tablePart = n.tablePart := by
  unfold Node.takeUndetected
  (repeat' split) <;> simp

@[simp] theorem Node.takeProvisional_tablePart (n : Node) (normal inverted : Option (List Byte)) :
    (n.takeProvisional normal inverted).tablePart = n.tablePart := by
  unfold Node.takeProvisional
  (repeat' split) <;> simp

@[simp] theorem Node.receptionEnds_tablePart (n : Node) (normal inverted : List HeardChar) :
    (n.receptionEnds normal inverted).tablePart = n.tablePart := by
  unfold Node.receptionEnds
  dsimp only
  (repeat' split) <;> simp

@[simp] theorem Node.deferEnd_tablePart (n : Node) : n.deferEnd.tablePart = n.tablePart := by
  unfold Node.deferEnd
  (repeat' split) <;> simp

@[simp] theorem Node.silenceExpiry_tablePart (n : Node) : n.silenceExpiry.tablePart = n.tablePart := by
  unfold Node.silenceExpiry
  (repeat' split) <;> simp

@[simp] theorem Node.correctionExpiry_tablePart (n : Node) : n.correctionExpiry.tablePart = n.tablePart := by
  unfold Node.correctionExpiry
  (repeat' split) <;> simp

/-! ### The neighbours -/

@[simp] theorem Node.noticeExpiry_tablePart (n : Node) : n.noticeExpiry.tablePart = n.tablePart := by
  unfold Node.noticeExpiry
  (repeat' split) <;> simp

@[simp] theorem Node.hearNotice_tablePart (n : Node) (r : Received) :
    (n.hearNotice r).tablePart = n.tablePart := by
  unfold Node.hearNotice
  (repeat' split) <;> simp

@[simp] theorem Node.viewExpiry_tablePart (n : Node) : n.viewExpiry.tablePart = n.tablePart := by
  unfold Node.viewExpiry
  (repeat' split) <;> simp

@[simp] theorem Node.hearRedirect_tablePart (n : Node) (r : Received) :
    (n.hearRedirect r).tablePart = n.tablePart := by
  unfold Node.hearRedirect
  (repeat' split) <;> simp

@[simp] theorem Node.expectExpiry_tablePart (n : Node) : n.expectExpiry.tablePart = n.tablePart := by
  unfold Node.expectExpiry
  (repeat' split) <;> simp

/-! ### The press's commands -/

@[simp] theorem Node.claimExpiry_tablePart (n : Node) : n.claimExpiry.tablePart = n.tablePart := by
  unfold Node.claimExpiry
  (repeat' split) <;> simp

@[simp] theorem Node.retryExpiry_tablePart (n : Node) : n.retryExpiry.tablePart = n.tablePart := by
  unfold Node.retryExpiry
  (repeat' split) <;> simp

@[simp] theorem Node.inhibitExpiry_tablePart (n : Node) : n.inhibitExpiry.tablePart = n.tablePart := by
  unfold Node.inhibitExpiry
  (repeat' split) <;> simp

@[simp] theorem Node.softStep_tablePart (n : Node) : n.softStep.tablePart = n.tablePart := by
  unfold Node.softStep
  (repeat' split) <;> simp

@[simp] theorem Node.loadTrip_tablePart (n : Node) : n.loadTrip.tablePart = n.tablePart := by
  unfold Node.loadTrip
  (repeat' split) <;> simp

@[simp] theorem Node.endSwitch_tablePart (n : Node) (isActive : Bool) :
    (n.endSwitch isActive).tablePart = n.tablePart := by
  unfold Node.endSwitch
  dsimp only
  split <;> simp

@[simp] theorem Node.forwardLimitReached_tablePart (n : Node) :
    n.forwardLimitReached.tablePart = n.tablePart := by
  unfold Node.forwardLimitReached
  (repeat' split) <;> simp

@[simp] theorem Node.dwellEnd_tablePart (n : Node) : n.dwellEnd.tablePart = n.tablePart := by
  unfold Node.dwellEnd
  (repeat' split) <;> simp

@[simp] theorem Node.reverseLimitReached_tablePart (n : Node) :
    n.reverseLimitReached.tablePart = n.tablePart := by
  unfold Node.reverseLimitReached
  (repeat' split) <;> simp

@[simp] theorem Node.homeActive_tablePart (n : Node) (reading : Option Int) :
    (n.homeActive reading).tablePart = n.tablePart := by
  unfold Node.homeActive
  dsimp only
  split <;> simp

@[simp] theorem Node.driveHoming_tablePart (n : Node) : n.driveHoming.tablePart = n.tablePart := by
  simp [Node.driveHoming]

@[simp] theorem Node.homingStart_tablePart (n : Node) : n.homingStart.tablePart = n.tablePart := by
  unfold Node.homingStart
  (repeat' split) <;> simp

@[simp] theorem Node.homeSettles_tablePart (n : Node) (isActive : Bool) (reading : Option Int) :
    (n.homeSettles isActive reading).tablePart = n.tablePart := by
  unfold Node.homeSettles
  dsimp only
  (repeat' split) <;> simp

@[simp] theorem Node.homeChanges_tablePart (n : Node) (isActive : Bool) :
    (n.homeChanges isActive).tablePart = n.tablePart := by
  unfold Node.homeChanges
  dsimp only
  (repeat' split) <;> simp

@[simp] theorem Node.hearStatusRequest_tablePart (n : Node) (r : Received) :
    (n.hearStatusRequest r).tablePart = n.tablePart := by
  unfold Node.hearStatusRequest
  (repeat' split) <;> simp

@[simp] theorem Node.logScanEnd_tablePart (n : Node) : n.logScanEnd.tablePart = n.tablePart := by
  unfold Node.logScanEnd
  (repeat' split) <;> simp

end Sys2Proof.Machine
end

section
/-! The working of a CARD UPDATE (R29, R31): what becomes of the telegram after an operation, when an operation waits for the
staging queue, and what each operation makes of the node. -/

open Sys2Proof Sys2Proof.Machine

namespace Sys2Proof.Machine

/-! ### The telegram in the receive buffer (R29, R144) -/

/-- The card table takes CARD UPDATEs alone. -/
theorem taker_cards : (fun r : Received => r.telegram.kind.taker == .cards) = fun r => r.telegram.kind == .cardUpdate := by
  funext r
  cases r.telegram.kind <;> rfl

theorem oldestOf_cards (buffer : List Received) :
    oldestOf .cards buffer = buffer.find? (fun r => r.telegram.kind == .cardUpdate) := by
  rw [oldestOf, taker_cards]

/-- The line unit once the CARD UPDATE being worked has left its receive buffer, if it still stood there (R29). -/
def Line.updateLeft (l : Line) (buffered : Bool) : Line :=
  { l with buffer := if buffered then l.buffer.eraseP (fun r => r.telegram.kind == .cardUpdate) else l.buffer }

theorem Node.updateLeaves_of {n : Node} {u : CardUpdate} (h : n.cards.update = some u) :
    n.updateLeaves = n.withLine (n.line.updateLeft u.buffered) := by
  unfold Node.updateLeaves Line.updateLeft
  cases hb : u.buffered <;> simp [h, hb, withoutOldest, taker_cards]
  rfl

/-! ### After an operation (R29, R31) -/

/-- After the last operation the telegram leaves. -/
theorem Node.settleUpdate_nil (n : Node) (buffered : Bool) : n.settleUpdate ⟨[], buffered⟩ =
    (n.withLine (n.line.updateLeft buffered)).withCards { n.cards with update := none } := by
  unfold Node.settleUpdate
  dsimp only
  rw [Node.updateLeaves_of rfl]
  rfl

/-- An operation of unknown kind ends the telegram with an UPDATE FAULT. -/
theorem Node.settleUpdate_unknown (n : Node) (index : Nat) (tail : List (Nat × CardOp)) (buffered : Bool) :
    n.settleUpdate ⟨(index, .unknown) :: tail, buffered⟩ =
      ((n.withLine (n.line.updateLeft buffered)).withCards { n.cards with update := none }).updateFault index 0 .malformed := by
  unfold Node.settleUpdate
  dsimp only
  rw [Node.updateLeaves_of rfl]
  rfl

/-- Any other operation waits to be worked. -/
theorem Node.settleUpdate_of_known (n : Node) {index : Nat} {op : CardOp} (h : op ≠ .unknown) (tail : List (Nat × CardOp))
    (buffered : Bool) : n.settleUpdate ⟨(index, op) :: tail, buffered⟩ =
      n.withCards { n.cards with update := some ⟨(index, op) :: tail, buffered⟩ } := by
  cases op with
  | unknown => exact absurd rfl h
  | _ => rfl

/-- The line unit with an UPDATE FAULT in its transmit queue (R37). -/
def Line.withFault (l : Line) (t : Telegram) : Line :=
  { l with queue := insertEntry ⟨t, 1, l.nextAge, 0, false, .cardTable⟩ l.queue, nextAge := l.nextAge + 1 }

/-- With a place in the queue an UPDATE FAULT waits there (R37, 12.1). -/
theorem Node.updateFault_of_room {n : Node} (hs : n.control.phase ≠ .safe) (hr : n.line.queue.length < queueCapacity)
    (index : Nat) (card : CardNumber) (reason : FaultReason) :
    n.updateFault index card reason = n.withLine (n.line.withFault (n.telegram .updateFault 250
      ([BitVec.ofNat 8 index] ++ bytesOf 4 card.toNat ++ [BitVec.ofNat 8 reason.code]))) :=
  Node.offerOnly_of_room hs nofun hr

/-- With a place in the queue the fault of an operation of unknown kind has card number 0 and MALFORMED (R31). -/
theorem Node.settleUpdate_unknown_of_room {n : Node} (hs : n.control.phase ≠ .safe) (hr : n.line.queue.length < queueCapacity)
    (index : Nat) (tail : List (Nat × CardOp)) (buffered : Bool) :
    n.settleUpdate ⟨(index, .unknown) :: tail, buffered⟩ = (n.withCards { n.cards with update := none }).withLine
      ((n.line.updateLeft buffered).withFault (n.telegram .updateFault 250 [BitVec.ofNat 8 index, 0, 0, 0, 0, 2])) := by
  rw [Node.settleUpdate_unknown]
  exact Node.updateFault_of_room
    (n := (n.withLine (n.line.updateLeft buffered)).withCards { n.cards with update := none }) hs hr index 0 .malformed

/-- What follows an operation changes what is being worked, and offers at most an UPDATE FAULT. -/
theorem Node.settleUpdate_same (n : Node) (u : CardUpdate) :
    ∃ update, (n.withCards { n.cards with update := update }).SameButOffers (n.settleUpdate u) := by
  obtain ⟨ops, buffered⟩ := u
  rcases ops with _ | ⟨⟨index, op⟩, tail⟩
  · exact ⟨none, by rw [Node.settleUpdate_nil]; exact Node.sameButOffers_withLine _ _⟩
  · by_cases h : op = .unknown
    · subst h
      refine ⟨none, ?_⟩
      rw [Node.settleUpdate_unknown]
      exact (Node.sameButOffers_withLine (n.withCards { n.cards with update := none }) _).trans
        (Node.sameButOffers_offerOnly _ _ _)
    · exact ⟨_, by rw [n.settleUpdate_of_known h]; exact .refl _⟩

/-- What follows an operation is what the statements say of it. -/
theorem Node.settleUpdate_goesOn {before n : Node} (hc : n.control = before.control) (rest : List (Nat × CardOp))
    (buffered : Bool) : Node.UpdateGoesOn n.line rest buffered before (n.settleUpdate ⟨rest, buffered⟩) := by
  refine ⟨?_, ?_⟩
  · rintro rfl
    rw [Node.settleUpdate_nil]
    exact ⟨rfl, rfl⟩
  · rintro index op tail rfl
    refine ⟨fun h => ?_, ?_⟩
    · rw [n.settleUpdate_of_known h]
      exact ⟨rfl, rfl⟩
    · rintro rfl hroom hsafe
      have htelegram : n.telegram .updateFault 250 [BitVec.ofNat 8 index, 0, 0, 0, 0, 2] =
          before.telegram .updateFault 250 [BitVec.ofNat 8 index, 0, 0, 0, 0, 2] :=
        Node.telegram_congr (by rw [hc]) _ _ _
      rw [Node.settleUpdate_unknown_of_room (hc ▸ hsafe) hroom, htelegram]
      exact ⟨rfl, rfl⟩

/-! ### The operation at the front (R29, R89) -/

section
variable {n m : Node} {f : Node → Nat → CardOp → Option Node} {index : Nat} {op : CardOp} {rest : List (Nat × CardOp)}
  {buffered : Bool}

/-- An operation that changes a row waits while the staging queue does not admit it. -/
theorem Node.workOp_waits (hp : n.cards.phase = .opened) (hu : n.cards.update = some ⟨(index, op) :: rest, buffered⟩)
    (hrow : n.cards.changesRow op = true) (hadmit : n.cardsAdmitted = false) : n.workOp f = n := by
  simp [Node.workOp, hp, hu, hrow, hadmit]

/-- An operation that changes no row, or that the staging queue admits, is worked, and the next is settled. -/
theorem Node.workOp_of (hp : n.cards.phase = .opened) (hu : n.cards.update = some ⟨(index, op) :: rest, buffered⟩)
    (hready : n.cards.changesRow op = false ∨ n.cardsAdmitted = true) (hf : f n index op = some m) :
    n.workOp f = m.settleUpdate ⟨rest, buffered⟩ := by
  have hnot : ¬ (n.cards.changesRow op = true ∧ n.cardsAdmitted = false) := by
    rcases hready with h | h <;> simp [h]
  simp [Node.workOp, hp, hu, hnot, hf]

/-- Working does nothing, or works the operation at the front and settles the next. -/
theorem Node.workOp_cases (n : Node) (f : Node → Nat → CardOp → Option Node) :
    n.workOp f = n ∨ ∃ index op m u, f n index op = some m ∧ n.workOp f = m.settleUpdate u := by
  unfold Node.workOp
  split
  next u _ _ =>
    split
    · exact .inl rfl
    next index op rest _ =>
      split
      · exact .inl rfl
      · split
        · exact .inl rfl
        next m hm => exact .inr ⟨index, op, m, _, hm, rfl⟩
  · exact .inl rfl

end

/-! ### The operations (R30, R32, R35) -/

/-- A record into a slot changes the card table, and its row is placed (R30). -/
theorem Node.putRecord_eq (n : Node) (slot : Nat) (r : CardRecord) :
    n.putRecord slot r = (n.withCards (n.cards.put slot r)).placeCardRow slot := by
  unfold Node.putRecord Cards.put
  cases valueAt slot n.cards.slots <;> rfl

section
variable {n m : Node} {index : Nat} {number : CardNumber} {cls status rights tariff : Byte}

theorem Node.workAdd_malformed (h : addRecord number cls status rights tariff = none) :
    n.workAdd index (.add number cls status rights tariff) = some (n.updateFault index number .malformed) := by
  simp [Node.workAdd, h]

theorem Node.workAdd_full {r : CardRecord} (h : addRecord number cls status rights tariff = some r)
    (hs : n.cards.slotFor number = none) :
    n.workAdd index (.add number cls status rights tariff) = some (n.updateFault index number .bucketFull) := by
  simp [Node.workAdd, h, hs]

theorem Node.workAdd_of {r : CardRecord} {slot : Nat} (h : addRecord number cls status rights tariff = some r)
    (hs : n.cards.slotFor number = some slot) :
    n.workAdd index (.add number cls status rights tariff) =
      some ((n.withCards (n.cards.put slot r)).placeCardRow slot) := by
  simp [Node.workAdd, h, hs, Node.putRecord_eq]

theorem Node.workRemove_absent (h : slotHolding n.cards.slots number = none) :
    n.workRemove index (.remove number) = some n := by
  simp [Node.workRemove, h]

theorem Node.workRemove_of {slot : Nat} {r : CardRecord} (h : slotHolding n.cards.slots number = some (slot, r)) :
    n.workRemove index (.remove number) = some ((n.withCards (n.cards.free slot r)).placeCardRow slot) := by
  simp [Node.workRemove, h, Cards.free]

theorem Node.workRevokeAdd_held (h : n.cards.revoked.any (fun p => p.2 == number) = true) :
    n.workRevokeAdd index (.revokeAdd number) = some n := if_pos h

theorem Node.workRevokeAdd_full (h : n.cards.revoked.any (fun p => p.2 == number) = false)
    (hs : lowestFree n.cards.revoked 0 128 = none) :
    n.workRevokeAdd index (.revokeAdd number) = some (n.updateFault index number .revocationFull) := by
  simp [Node.workRevokeAdd, h, revocationPositions, hs]

theorem Node.workRevokeAdd_of {position : Nat} (h : n.cards.revoked.any (fun p => p.2 == number) = false)
    (hs : lowestFree n.cards.revoked 0 128 = some position) :
    n.workRevokeAdd index (.revokeAdd number) =
      some ((n.withCards (n.cards.revoke position number)).placeRevocationRow position) := by
  simp [Node.workRevokeAdd, h, revocationPositions, hs, Cards.revoke]

theorem Node.workRevokeRemove_absent (h : n.cards.revoked.find? (fun p => p.2 == number) = none) :
    n.workRevokeRemove index (.revokeRemove number) = some n := by
  simp [Node.workRevokeRemove, h]

theorem Node.workRevokeRemove_of {p : Nat × CardNumber} (h : n.cards.revoked.find? (fun p => p.2 == number) = some p) :
    n.workRevokeRemove index (.revokeRemove number) =
      some ((n.withCards (n.cards.unrevoke p.1)).placeRevocationRow p.1) := by
  simp [Node.workRevokeRemove, h, Cards.unrevoke]

end

/-- A well-formed ADD gives its own number's record (R31). -/
theorem addRecord_number {number : CardNumber} {cls status rights tariff : Byte} {r : CardRecord}
    (h : addRecord number cls status rights tariff = some r) : r.number = number := by
  unfold addRecord at h
  split at h
  · cases h
  · split at h
    · cases h
    · exact (Option.some.inj h) ▸ rfl

end Sys2Proof.Machine
end

section
/-! O8: the oldest CARD UPDATE is taken up in OPEN (R29, R31). -/

open Sys2Proof Sys2Proof.Machine

namespace Sys2Proof.Machine

/-- Outside OPEN, or with a telegram being worked, none is taken up (R29). -/
theorem Node.takeUpdate_of_not {n : Node} (h : n.cards.phase ≠ .opened ∨ n.cards.update.isSome = true) : n.takeUpdate = n := by
  unfold Node.takeUpdate
  split
  next hp hu _ => simp [hp, hu] at h
  · rfl

/-- In OPEN with none being worked the oldest CARD UPDATE is taken up (R29). -/
theorem Node.takeUpdate_of {n : Node} {r : Received} (hp : n.cards.phase = .opened) (hu : n.cards.update = none)
    (hr : n.line.buffer.find? (fun r => r.telegram.kind == .cardUpdate) = some r) :
    n.takeUpdate = n.settleUpdate ⟨readOps 3 1 r.telegram.payload, true⟩ := by
  rw [← oldestOf_cards] at hr
  simp [Node.takeUpdate, hp, hu, hr]

end Sys2Proof.Machine

/-- Settles O8: outside OPEN nothing is taken up; in OPEN the kind of the first operation says what becomes of the telegram. -/
theorem cardUpdateIsTakenInOrder : Obligations.CardUpdateIsTakenInOrder := by
  intro s dt hruns
  have hexec : exec (.cardUpdate dt) s = .next ⟨(s.node.advance dt).takeUpdate, s.pending⟩ :=
    State.perform_station hruns.acts dt _
  refine ⟨fun h => ?_, fun r index op rest hp hu hr hops => ?_⟩
  · rw [hexec, Node.takeUpdate_of_not (n := s.node.advance dt) h]
    rfl
  · rw [Node.takeUpdate_of (n := s.node.advance dt) hp hu hr, hops] at hexec
    refine ⟨fun hop => ?_, ?_⟩
    · rw [hexec, Node.settleUpdate_of_known _ hop]
      rfl
    · rintro rfl hroom
      have hsafe : s.node.control.phase ≠ .safe := by rw [hruns.2.1]; nofun
      have hcards : { s.node.cards with update := none } = s.node.cards := by rw [← hu]
      rw [hexec, Node.settleUpdate_unknown_of_room (n := s.node.advance dt) hsafe hroom, Node.advance_cards, hcards]
      rfl
end

section
/-! O9 and O10: an operation that changes a row waits for the staging queue, and then changes one number (R28 to R32, R35,
R38, R89). -/

open Sys2Proof Sys2Proof.Machine

namespace Sys2Proof.Machine

/-! ### An operation that changes a row (R29, R89) -/

/-- The row write of a slot, as the table holds its row (R27). -/
def Cards.slotRow (c : Cards) (slot : Nat) : RowWrite :=
  ⟨.card, slot / 2, cardRow (valueAt (2 * (slot / 2)) c.slots) (valueAt (2 * (slot / 2) + 1) c.slots)⟩

/-- The row write of a position, as the list holds its row (R35). -/
def Cards.positionRow (c : Cards) (position : Nat) : RowWrite :=
  ⟨.revocation, position / 2,
    revocationRow (valueAt (2 * (position / 2)) c.revoked) (valueAt (2 * (position / 2) + 1) c.revoked)⟩

/-- The card table `d` is `c` but for the telegram being worked. -/
structure Cards.HoldsAs (d c : Cards) : Prop where
  slots       : d.slots = c.slots
  revoked     : d.revoked = c.revoked
  entries     : d.entries = c.entries
  revocations : d.revocations = c.revocations
  checkValue  : d.checkValue = c.checkValue
  lookup      : ∀ number, d.lookup number = c.lookup number
  isRevoked   : ∀ number, d.isRevoked number = c.isRevoked number

theorem Cards.holdsAs_update (c : Cards) (update : Option CardUpdate) : ({ c with update := update } : Cards).HoldsAs c :=
  ⟨rfl, rfl, rfl, rfl, rfl, fun _ => rfl, fun _ => rfl⟩

/-- An operation's command with the outcome `o` waits while the staging queue does not admit its row; else the table becomes `c`,
the row write `w` is placed, and the next operation is worked or the telegram leaves. -/
structure State.ChangesRow (s : State) (dt : Nat) (o : Host.Outcome State Fault Refusal) (c : Cards) (w : RowWrite)
    (rest : List (Nat × CardOp)) (buffered : Bool) : Prop where
  waits  : s.node.cardsAdmitted = false → o = .next ⟨{ s.node with now := s.node.now + dt }, s.pending⟩
  worked : s.node.cardsAdmitted = true → ∃ n : Node, o = .next ⟨n, s.pending⟩ ∧
    n.cards.HoldsAs c ∧ n.store = s.node.store.place (s.node.now + dt) w ∧
    Node.UpdateGoesOn s.node.line rest buffered s.node n

section
variable {s : State} {dt index : Nat} {rest : List (Nat × CardOp)} {buffered : Bool} {number : CardNumber}

/-- An operation that changes the table to `c` and places `w` is such an operation. -/
theorem State.changesRow_of_work {f : Node → Nat → CardOp → Option Node} {op : CardOp} {c : Cards} {w : RowWrite}
    (hruns : s.node.StationRuns) (hp : s.node.cards.phase = .opened)
    (hu : s.node.cards.update = some ⟨(index, op) :: rest, buffered⟩) (hrow : s.node.cards.changesRow op = true)
    (hf : f (s.node.advance dt) index op =
      some (((s.node.advance dt).withCards c).placeRow w.region w.row w.bytes)) :
    s.ChangesRow dt (s.perform dt (fun n => n.whenStation (fun n => n.workOp f))) c w rest buffered := by
  rw [State.perform_station hruns.acts]
  refine ⟨fun hwait => ?_, fun hadmit => ⟨_, rfl, ?_⟩⟩
  · rw [Node.workOp_waits (n := s.node.advance dt) hp hu hrow hwait]
    rfl
  · rw [Node.workOp_of (n := s.node.advance dt) hp hu (.inr hadmit) hf]
    obtain ⟨update, same⟩ :=
      (((s.node.advance dt).withCards c).placeRow w.region w.row w.bytes).settleUpdate_same ⟨rest, buffered⟩
    exact ⟨same.cards ▸ c.holdsAs_update update, same.store, Node.settleUpdate_goesOn rfl rest buffered⟩

variable (hruns : s.node.StationRuns) (hp : s.node.cards.phase = .opened)
include hruns hp

/-- ADD puts its record into the slot it takes (R30). -/
theorem exec_add {cls status rights tariff : Byte} {r : CardRecord} {slot : Nat}
    (hu : s.node.cards.update = some ⟨(index, .add number cls status rights tariff) :: rest, buffered⟩)
    (hr : addRecord number cls status rights tariff = some r) (hs : s.node.cards.slotFor number = some slot) :
    s.ChangesRow dt (exec (.add dt) s) (s.node.cards.put slot r) ((s.node.cards.put slot r).slotRow slot) rest buffered :=
  State.changesRow_of_work hruns hp hu (by simp [Cards.changesRow, hr, hs]) (Node.workAdd_of hr hs)

/-- REMOVE frees the slot that holds its number (R32). -/
theorem exec_remove {slot : Nat} {r : CardRecord}
    (hu : s.node.cards.update = some ⟨(index, .remove number) :: rest, buffered⟩)
    (hs : slotHolding s.node.cards.slots number = some (slot, r)) :
    s.ChangesRow dt (exec (.remove dt) s) (s.node.cards.free slot r) ((s.node.cards.free slot r).slotRow slot) rest
      buffered :=
  State.changesRow_of_work hruns hp hu (by simp [Cards.changesRow, hs]) (Node.workRemove_of hs)

/-- REVOKE ADD puts its number into the lowest free position (R35). -/
theorem exec_revokeAdd {position : Nat} (hu : s.node.cards.update = some ⟨(index, .revokeAdd number) :: rest, buffered⟩)
    (hn : s.node.cards.revoked.any (fun p => p.2 == number) = false)
    (hs : lowestFree s.node.cards.revoked 0 128 = some position) :
    s.ChangesRow dt (exec (.revokeAdd dt) s) (s.node.cards.revoke position number)
      ((s.node.cards.revoke position number).positionRow position) rest buffered :=
  State.changesRow_of_work hruns hp hu (by simp only [Cards.changesRow, hn, revocationPositions, hs]; rfl)
    (Node.workRevokeAdd_of hn hs)

/-- REVOKE REMOVE frees the position that holds its number (R35). -/
theorem exec_revokeRemove {position : Nat} (hu : s.node.cards.update = some ⟨(index, .revokeRemove number) :: rest, buffered⟩)
    (hs : s.node.cards.revoked.find? (fun p => p.2 == number) = some (position, number)) :
    s.ChangesRow dt (exec (.revokeRemove dt) s) (s.node.cards.unrevoke position)
      ((s.node.cards.unrevoke position).positionRow position) rest buffered :=
  State.changesRow_of_work hruns hp hu (any_revoked_iff.mpr ⟨position, List.mem_of_find?_eq_some hs⟩)
    (Node.workRevokeRemove_of (n := s.node.advance dt) hs)

end

end Sys2Proof.Machine

/-- Settles O9: under the law of the records an ADD or a REMOVE changes the lookup of its own number alone. -/
theorem addAndRemoveChangeOneCard : Obligations.AddAndRemoveChangeOneCard := by
  refine ⟨Node.cardsAdmitted_iff, fun s dt index rest buffered number hruns hlaw hp => ?_⟩
  obtain ⟨law, -, -⟩ := s.node.cardLaw_iff.mp hlaw
  have hclear : s.node.cards.phase ≠ .clearing := by rw [hp]; nofun
  refine ⟨fun cls status rights tariff r slot hu hr hs => ?add, fun slot r hu hs => ?remove⟩
  case add =>
    obtain ⟨hwaits, hworked⟩ := exec_add (dt := dt) hruns hp hu hr hs
    refine ⟨hwaits, fun hadmit => ?_⟩
    obtain ⟨n, hexec, table, hstore, hgoes⟩ := hworked hadmit
    obtain rfl := addRecord_number hr
    obtain ⟨hnew, hold⟩ := law.lookup_put hclear hs
    refine ⟨n, hexec, (Cards.slotFor_spec law hs).1, ?_, (table.lookup _).trans hnew,
      fun c hc => (table.lookup c).trans (hold c hc), table.entries.trans (law.entries_put hclear hs),
      table.checkValue.trans (law.checkValue_put hclear hs), ?_, table.revoked, table.revocations, hgoes⟩
    · rw [table.slots]
      exact law.rising.valueAt_putAt
    · rw [hstore, table.slots]
      rfl
  case remove =>
    obtain ⟨hwaits, hworked⟩ := exec_remove (dt := dt) hruns hp hu hs
    refine ⟨hwaits, fun hadmit => ?_⟩
    obtain ⟨n, hexec, table, hstore, hgoes⟩ := hworked hadmit
    obtain ⟨hnone, hold⟩ := law.lookup_free hclear hs
    refine ⟨n, hexec, ?_, (table.lookup _).trans hnone, fun c hc => (table.lookup c).trans (hold c hc), ?_, table.checkValue,
      ?_, table.revoked, table.revocations, hgoes⟩
    · rw [table.slots]
      exact valueAt_freeAt
    · rw [table.entries]
      exact law.entries_free (slotHolding_some hs).1
    · rw [hstore, table.slots]
      rfl

/-- Settles O10: under the law of the revocation list each operation changes the standing of its own number alone. -/
theorem revokeAddAndRemoveChangeOneNumber : Obligations.RevokeAddAndRemoveChangeOneNumber := by
  intro s dt index rest buffered number hruns hlaw hp
  obtain ⟨-, law, -⟩ := s.node.cardLaw_iff.mp hlaw
  have hclear : s.node.cards.phase ≠ .revokeClearing := by rw [hp]; nofun
  refine ⟨fun position hu hn hs => ?add, fun position hu hmem => ?remove⟩
  case add =>
    rw [Cards.isRevoked, if_neg hclear] at hn
    obtain ⟨hwaits, hworked⟩ := exec_revokeAdd (dt := dt) hruns hp hu hn hs
    refine ⟨hwaits, fun hadmit => ?_⟩
    obtain ⟨n, hexec, table, hstore, hgoes⟩ := hworked hadmit
    obtain ⟨hnew, hold⟩ := law.isRevoked_revoke (number := number) hclear (lowestFree_spec hs).2.2
    refine ⟨n, hexec, ?_, (table.isRevoked _).trans hnew, fun c hc => (table.isRevoked c).trans (hold c hc), table.revocations,
      ?_, table.slots, table.entries, table.checkValue, hgoes⟩
    · rw [table.revoked]
      exact law.rising.valueAt_putAt
    · rw [hstore, table.revoked]
      rfl
  case remove =>
    obtain ⟨hwaits, hworked⟩ := exec_revokeRemove (dt := dt) hruns hp hu (law.find hmem)
    refine ⟨hwaits, fun hadmit => ?_⟩
    obtain ⟨n, hexec, table, hstore, hgoes⟩ := hworked hadmit
    obtain ⟨hnone, hold⟩ := law.isRevoked_unrevoke hclear hmem
    refine ⟨n, hexec, ?_, (table.isRevoked _).trans hnone, fun c hc => (table.isRevoked c).trans (hold c hc), ?_, ?_,
      table.slots, table.entries, table.checkValue, hgoes⟩
    · rw [table.revoked]
      exact valueAt_freeAt
    · rw [table.revocations]
      exact law.revocations_unrevoke hmem
    · rw [hstore, table.revoked]
      rfl
end

section
/-! O11: an operation of unknown kind behind one that changes nothing, with the transmit queue full. -/

open Sys2Proof Sys2Proof.Machine

namespace Sys2Proof.Machine

/-- A transmit queue that is full: five CALLs, and behind them the HARVEST ANSWER with LAST of the harvest in flight. -/
def fullQueue : List QueueEntry :=
  (List.range 5).map (fun age => ⟨⟨.call, 7, 3, 250, []⟩, 1, age, 0, false, .callUnit⟩) ++
    [⟨⟨.harvestAnswer, 7, 3, 250, []⟩, 3, 5, 0, false, .depositLog⟩]

/-- A running station that works a REMOVE of an absent card with an operation of unknown kind behind it, its transmit queue
full and the last telegram of a harvest waiting in it. -/
def crowdedUpdate : Node :=
  { Node.reset with
    control := { Control.start .power with phase := .running }
    cards := { Cards.start with phase := .opened, update := some ⟨[(1, .remove 1), (2, .unknown)], false⟩ }
    line := { Line.start with queue := fullQueue, nextAge := 6 }
    log := { Log.start with harvest := some ⟨0, none, 0, false, 1, some true⟩ } }

theorem crowdedUpdate_runs : crowdedUpdate.StationRuns := by decide

/-- The UPDATE FAULT of the unknown operation displaces the HARVEST ANSWER, and the harvest in flight ends (R140, R141). -/
theorem remove_crowdedUpdate : ∃ n : Node, exec (.remove 0) ⟨crowdedUpdate, []⟩ = .next ⟨n, []⟩ ∧ n.log.harvest = none :=
  ⟨_, rfl, by decide⟩

end Sys2Proof.Machine

/-- Refutes O11: a REMOVE of an absent card changes more of the node than the CARD UPDATE and the line unit, when the operation
behind it is of unknown kind and its UPDATE FAULT finds the transmit queue full; it then displaces a HARVEST ANSWER, and the
deposit log hears of that (R140, R141). The statement asks for a place in the queue only where the operation itself faults. -/
theorem not_faultsAndEmptyOperations : ¬ Obligations.FaultsAndEmptyOperations := by
  intro h
  obtain ⟨-, hremove, -⟩ := h.1 ⟨crowdedUpdate, []⟩ 0 1 (.remove 1) [(2, .unknown)] false 1 crowdedUpdate_runs rfl rfl
  obtain ⟨n, hstep, hframe, -⟩ := hremove rfl rfl
  obtain ⟨m, hstep', hharvest⟩ := remove_crowdedUpdate
  obtain rfl : n = m := by
    rw [hstep'] at hstep
    injection hstep with hstate
    injection hstate with hnode
    exact hnode.symm
  have hkept : n.log = crowdedUpdate.log := (congrArg Node.log hframe :)
  rw [hkept] at hharvest
  exact absurd hharvest (by decide)
end

section
/-! O12: the clears begin, place their rows and end (R33, R34, R36). -/

open Sys2Proof Sys2Proof.Machine

namespace Sys2Proof.Machine

/-! ### The beginning of a clear (R33, R36) -/

/-- A clear at the front begins, and holds what follows it. -/
theorem Node.workClear_of {n : Node} {index : Nat} {op : CardOp} {rest : List (Nat × CardOp)} {buffered : Bool}
    (hp : n.cards.phase = .opened) (hu : n.cards.update = some ⟨(index, op) :: rest, buffered⟩) (phase : TablePhase) :
    n.workClear op phase = (n.withLine (n.line.updateLeft buffered)).withCards { n.cards with
      phase := phase, progress := some 0, update := if rest = [] then none else some ⟨rest, false⟩ } := by
  simp only [Node.workClear, hp, hu, if_pos, Node.beginClear, Node.updateLeaves_of hu, List.isEmpty_iff]
  rfl

/-- Outside OPEN, or with another operation at the front, no clear begins. -/
theorem Node.workClear_cases (n : Node) (op : CardOp) (phase : TablePhase) :
    n.workClear op phase = n ∨ n.cards.phase = .opened ∧ ∃ rest, n.workClear op phase = n.beginClear phase rest := by
  unfold Node.workClear
  split
  next u hp _ =>
    split
    next rest _ =>
      split
      · exact .inr ⟨hp, rest, rfl⟩
      · exact .inl rfl
    · exact .inl rfl
  · exact .inl rfl

/-! ### The rows of a clear (R33, R36) -/

/-- The next row of a clear is placed as an empty row when the staging queue admits it. -/
theorem Node.clearRow_of {n : Node} {region : Region} {rows row : Nat} (hc : n.cards.clearing = some (region, rows))
    (hp : n.cards.progress = some row) (hrow : row < rows) (hadmit : n.cardsAdmitted = true) :
    n.clearRow = (n.placeRow region row emptyRow).withCards { n.cards with progress := some (row + 1) } := by
  simp [Node.clearRow, hc, hp, hrow, hadmit]

/-- Until then it waits. -/
theorem Node.clearRow_waits {n : Node} (hadmit : n.cardsAdmitted = false) : n.clearRow = n := by
  unfold Node.clearRow
  split
  · simp [hadmit]
  · rfl

/-! ### The end of a clear (R34, R36) -/

/-- The table after a CLEAR (R34). -/
def Cards.cleared (c : Cards) : Cards :=
  { c with phase := .opened, progress := none, slots := [], entries := 0, checkValue := 0, repaired := false }

/-- The table after a REVOKE CLEAR (R36). -/
def Cards.revokeCleared (c : Cards) : Cards :=
  { c with phase := .opened, progress := none, revoked := [], revocations := 0 }

/-- The program of the last row of a CLEAR completes it. -/
theorem Node.clearProgrammed_card {n : Node} {w : RowWrite} (hp : n.cards.phase = .clearing)
    (hprogress : n.cards.progress = some 1024) (hregion : w.region = .card) (hrow : w.row = 1023) :
    n.clearProgrammed w = (n.withCards n.cards.cleared).resumeHeld := by
  simp [Node.clearProgrammed, Cards.clearing, hp, hprogress, hregion, hrow, cardRows, Cards.cleared]

/-- The program of the last row of a REVOKE CLEAR completes it. -/
theorem Node.clearProgrammed_revocation {n : Node} {w : RowWrite} (hp : n.cards.phase = .revokeClearing)
    (hprogress : n.cards.progress = some 64) (hregion : w.region = .revocation) (hrow : w.row = 63) :
    n.clearProgrammed w = (n.withCards n.cards.revokeCleared).resumeHeld := by
  simp [Node.clearProgrammed, Cards.clearing, hp, hprogress, hregion, hrow, revocationRows, Cards.revokeCleared]

/-- The end of a program completes the clear in flight, or none. -/
theorem Node.clearProgrammed_cases (n : Node) (w : RowWrite) :
    n.clearProgrammed w = n ∨
    (n.cards.phase = .clearing ∧ n.clearProgrammed w = (n.withCards n.cards.cleared).resumeHeld) ∨
    (n.cards.phase = .revokeClearing ∧ n.clearProgrammed w = (n.withCards n.cards.revokeCleared).resumeHeld) := by
  unfold Node.clearProgrammed
  split
  next region rows row hclearing _ =>
    split
    · split
      next hp => exact .inr (.inl ⟨hp, rfl⟩)
      next hp =>
        have hrevoke : n.cards.phase = .revokeClearing := by
          unfold Cards.clearing at hclearing
          cases hphase : n.cards.phase <;> simp_all
        exact .inr (.inr ⟨hrevoke, rfl⟩)
    · exact .inl rfl
  · exact .inl rfl

/-- Taking up what was held changes what is being worked, and offers at most an UPDATE FAULT. -/
theorem Node.resumeHeld_same (n : Node) :
    ∃ update, (n.withCards { n.cards with update := update }).SameButOffers n.resumeHeld := by
  unfold Node.resumeHeld
  split
  · exact ⟨n.cards.update, .refl n⟩
  next u _ => exact n.settleUpdate_same u

/-- The node when the store's programming of `w` has ended at `t`, before the card table hears of it. -/
def Node.programmedAt (n : Node) (t : Moment) (w : RowWrite) : Node :=
  ((n.reach t).withStore ((n.reach t).store.programmed (n.reach t).now)).commitRow w

/-- What the end of a program makes of the card table is what the clear in flight makes of it. -/
theorem Node.programEnds_tablePart {n : Node} {t : Moment} {w : RowWrite} {staging : List RowWrite}
    (ht : n.store.programEnds = some t) (hs : n.store.staging = w :: staging) :
    n.programEnds.tablePart = ((n.programmedAt t w).clearProgrammed w).tablePart := by
  simp [Node.programEnds, ht, hs, Node.programmedAt]

@[simp] theorem Node.programmedAt_tablePart (n : Node) (t : Moment) (w : RowWrite) :
    (n.programmedAt t w).tablePart = n.tablePart := by
  simp [Node.programmedAt]

theorem Node.cards_of_tablePart {n m : Node} (h : m.tablePart = n.tablePart) : m.cards = n.cards :=
  congrArg Prod.fst h

/-- The card table once a clear has ended and what it held is taken up: the cleared table, with the next telegram. -/
theorem Node.programEnds_cards {n : Node} {t : Moment} {w : RowWrite} {staging : List RowWrite}
    {cleared : Cards → Cards} (ht : n.store.programEnds = some t) (hs : n.store.staging = w :: staging)
    (hcleared : ∀ m : Node, m.cards = n.cards → m.clearProgrammed w = (m.withCards (cleared n.cards)).resumeHeld) :
    ∃ update, n.programEnds.cards = { cleared n.cards with update := update } := by
  rw [Node.cards_of_tablePart (Node.programEnds_tablePart ht hs),
    hcleared _ (Node.cards_of_tablePart (n.programmedAt_tablePart t w))]
  obtain ⟨update, hsame⟩ := ((n.programmedAt t w).withCards (cleared n.cards)).resumeHeld_same
  exact ⟨update, hsame.cards⟩

end Sys2Proof.Machine

/-- Settles O12: the beginning, the rows and the end of each clear. -/
theorem clearsRunRowByRow : Obligations.ClearsRunRowByRow := by
  refine ⟨⟨fun s dt index rest buffered hruns hp => ⟨fun hu => ?clear, fun hu => ?revokeClear⟩, fun c number => ?lookups⟩,
    fun s dt row hruns hrow => ⟨fun hwait => ?waits, fun hadmit => ⟨fun hp hlt => ?card, fun hp hlt => ?revocation⟩⟩,
    fun s dt t row bytes staging hruns ht =>
      ⟨fun hp hprogress hrow hs => ?cardEnd, fun hp hprogress hrow hs => ?revocationEnd⟩⟩
  case clear =>
    have hexec : exec (.clear dt) s = .next ⟨(s.node.advance dt).workClear .clear .clearing, s.pending⟩ :=
      State.perform_station hruns.acts dt _
    rw [hexec, Node.workClear_of (n := s.node.advance dt) hp hu]
    rfl
  case revokeClear =>
    have hexec : exec (.revokeClear dt) s = .next ⟨(s.node.advance dt).workClear .revokeClear .revokeClearing, s.pending⟩ :=
      State.perform_station hruns.acts dt _
    rw [hexec, Node.workClear_of (n := s.node.advance dt) hp hu]
    rfl
  case lookups => exact ⟨fun hp => if_pos hp, fun hp => if_pos hp⟩
  case waits =>
    have hexec : exec (.clearRowWrite dt) s = .next ⟨(s.node.advance dt).clearRow, s.pending⟩ :=
      State.perform_station hruns.acts dt _
    rw [hexec, Node.clearRow_waits (n := s.node.advance dt) hwait]
    rfl
  case card =>
    have hexec : exec (.clearRowWrite dt) s = .next ⟨(s.node.advance dt).clearRow, s.pending⟩ :=
      State.perform_station hruns.acts dt _
    have hclearing : s.node.cards.clearing = some (.card, 1024) := by simp [Cards.clearing, hp, cardRows]
    rw [hexec, Node.clearRow_of (n := s.node.advance dt) hclearing hrow hlt hadmit]
    rfl
  case revocation =>
    have hexec : exec (.clearRowWrite dt) s = .next ⟨(s.node.advance dt).clearRow, s.pending⟩ :=
      State.perform_station hruns.acts dt _
    have hclearing : s.node.cards.clearing = some (.revocation, 64) := by simp [Cards.clearing, hp, revocationRows]
    rw [hexec, Node.clearRow_of (n := s.node.advance dt) hclearing hrow hlt hadmit]
    rfl
  case cardEnd =>
    have hexec : exec (.rowProgramEnd dt) s = .next ⟨(s.node.advance dt).programEnds, s.pending⟩ :=
      State.perform_station hruns.acts dt _
    obtain ⟨update, hcards⟩ := Node.programEnds_cards (n := s.node.advance dt) (cleared := Cards.cleared) ht hs
      fun m hm => hm ▸ Node.clearProgrammed_card (hm ▸ hp) (hm ▸ hprogress) rfl hrow
    exact ⟨_, hexec, by simp only [hcards, Cards.cleared, Node.advance_cards, and_self]⟩
  case revocationEnd =>
    have hexec : exec (.rowProgramEnd dt) s = .next ⟨(s.node.advance dt).programEnds, s.pending⟩ :=
      State.perform_station hruns.acts dt _
    obtain ⟨update, hcards⟩ := Node.programEnds_cards (n := s.node.advance dt) (cleared := Cards.revokeCleared) ht hs
      fun m hm => hm ▸ Node.clearProgrammed_revocation (hm ▸ hp) (hm ▸ hprogress) rfl hrow
    exact ⟨_, hexec, by simp only [hcards, Cards.revokeCleared, Node.advance_cards, and_self]⟩
end

section
/-! The start scan of the card and revocation regions (R40, R41): what a place is read as is kept unless a lower place holds
the same number, and what is dropped makes TABLE REPAIRED. -/

open Sys2Proof Sys2Proof.Machine

namespace Sys2Proof.Machine

/-! ### Places read in order -/

section
variable {α : Type}

/-- What the `count` places from `first` on keep of what they are read as: each value whose number no lower place of them has. -/
def keepFirst (key : α → CardNumber) (read : Nat → Option α) (first : Nat) : Nat → List (Nat × α)
  | 0 => []
  | count + 1 =>
    let kept := keepFirst key read first count
    match read (first + count) with
    | none => kept
    | some x => if kept.any (fun p => key p.2 == key x) then kept else kept ++ [(first + count, x)]

/-- The value read at `place` is one that a lower place from `first` on has the number of. -/
def HeldLower (key : α → CardNumber) (read : Nat → Option α) (first place : Nat) (x : α) : Prop :=
  ∃ q y, first ≤ q ∧ q < place ∧ read q = some y ∧ key y = key x

variable {key : α → CardNumber} {read : Nat → Option α} {first count : Nat}

theorem keepFirst_of_none (h : read (first + count) = none) :
    keepFirst key read first (count + 1) = keepFirst key read first count := by
  simp [keepFirst, h]

theorem keepFirst_of_any {x : α} (h : read (first + count) = some x)
    (hany : (keepFirst key read first count).any (fun p => key p.2 == key x) = true) :
    keepFirst key read first (count + 1) = keepFirst key read first count := by
  simp only [keepFirst, h, hany, if_true]

theorem keepFirst_of_not_any {x : α} (h : read (first + count) = some x)
    (hany : (keepFirst key read first count).any (fun p => key p.2 == key x) = false) :
    keepFirst key read first (count + 1) = keepFirst key read first count ++ [(first + count, x)] := by
  simp [keepFirst, h, hany]

/-- What is kept is read at its place. -/
theorem read_of_mem_keepFirst {p : Nat × α} (h : p ∈ keepFirst key read first count) :
    first ≤ p.1 ∧ p.1 < first + count ∧ read p.1 = some p.2 := by
  induction count with
  | zero => cases h
  | succ count ih =>
    have hold (hmem : p ∈ keepFirst key read first count) : first ≤ p.1 ∧ p.1 < first + (count + 1) ∧ read p.1 = some p.2 :=
      ⟨(ih hmem).1, by have := (ih hmem).2.1; omega, (ih hmem).2.2⟩
    cases hread : read (first + count) with
    | none => exact hold (keepFirst_of_none hread ▸ h)
    | some x =>
      cases hany : (keepFirst key read first count).any (fun p => key p.2 == key x) with
      | true => exact hold (keepFirst_of_any hread hany ▸ h)
      | false =>
        rw [keepFirst_of_not_any hread hany, List.mem_append, List.mem_singleton] at h
        rcases h with h | rfl
        · exact hold h
        · exact ⟨by simp, by simp, hread⟩

/-- What is kept has a number that a place is read with, and each of those numbers is kept. -/
theorem any_keepFirst_iff {x : α} :
    (keepFirst key read first count).any (fun p => key p.2 == key x) = true ↔
      HeldLower key read first (first + count) x := by
  simp only [List.any_eq_true, beq_iff_eq]
  constructor
  · rintro ⟨p, hp, hkey⟩
    obtain ⟨hfirst, hlt, hread⟩ := read_of_mem_keepFirst hp
    exact ⟨p.1, p.2, hfirst, hlt, hread, hkey⟩
  · rintro ⟨q, y, hfirst, hlt, hread, hkey⟩
    induction count with
    | zero => omega
    | succ count ih =>
      have hold (hq : q < first + count) : ∃ p ∈ keepFirst key read first (count + 1), key p.2 = key x := by
        obtain ⟨p, hp, hpkey⟩ := ih hq
        cases hlast : read (first + count) with
        | none => exact ⟨p, keepFirst_of_none hlast ▸ hp, hpkey⟩
        | some z =>
          cases hany : (keepFirst key read first count).any (fun p => key p.2 == key z) with
          | true => exact ⟨p, keepFirst_of_any hlast hany ▸ hp, hpkey⟩
          | false => exact ⟨p, keepFirst_of_not_any hlast hany ▸ List.mem_append_left _ hp, hpkey⟩
      by_cases hq : q < first + count
      · exact hold hq
      · obtain rfl : q = first + count := by omega
        cases hany : (keepFirst key read first count).any (fun p => key p.2 == key y) with
        | true =>
          obtain ⟨p, hp, hpkey⟩ := List.any_eq_true.mp hany
          exact ⟨p, keepFirst_of_any hread hany ▸ hp, (beq_iff_eq.mp hpkey).trans hkey⟩
        | false => exact ⟨(_, y), keepFirst_of_not_any hread hany ▸ List.mem_append_right _ (.head _), hkey⟩

theorem keepFirst_succ {x : α} (h : read (first + count) = some x) [Decidable (HeldLower key read first (first + count) x)] :
    keepFirst key read first (count + 1) =
      keepFirst key read first count ++ if HeldLower key read first (first + count) x then [] else [(first + count, x)] := by
  split
  next hheld => rw [keepFirst_of_any h (any_keepFirst_iff.mpr hheld), List.append_nil]
  next hheld => rw [keepFirst_of_not_any h (Bool.eq_false_iff.mpr (mt any_keepFirst_iff.mp hheld))]

/-- A place is kept with what it is read as, unless a lower one has the number. -/
theorem mem_keepFirst {p : Nat} {x : α} : (p, x) ∈ keepFirst key read first count ↔
    (first ≤ p ∧ p < first + count) ∧ read p = some x ∧ ¬ HeldLower key read first p x := by
  classical
  induction count with
  | zero => simp [keepFirst]
  | succ count ih =>
    cases hread : read (first + count) with
    | none =>
      rw [keepFirst_of_none hread, ih]
      have hne : read p = some x → p ≠ first + count := by rintro h rfl; simp [hread] at h
      grind
    | some y =>
      rw [keepFirst_succ hread, List.mem_append, ih]
      by_cases hp : p = first + count
      · subst hp
        split <;> grind
      · split <;> grind

/-- What is kept stands by rising place. -/
theorem ascending_keepFirst : Ascending (keepFirst key read first count) := by
  classical
  induction count with
  | zero => exact .nil
  | succ count ih =>
    cases hread : read (first + count) with
    | none => rwa [keepFirst_of_none hread]
    | some x =>
      rw [keepFirst_succ hread]
      refine List.pairwise_append.mpr ⟨ih, by split <;> simp, fun p hp q hq => ?_⟩
      have hlt := (read_of_mem_keepFirst hp).2.1
      split at hq <;> simp_all

/-- No number is kept twice. -/
theorem keepFirst_once {p q : Nat × α} (hp : p ∈ keepFirst key read first count) (hq : q ∈ keepFirst key read first count)
    (hkey : key p.2 = key q.2) : p.1 = q.1 := by
  obtain ⟨hpfirst, -, hpread⟩ := read_of_mem_keepFirst hp
  obtain ⟨hqfirst, -, hqread⟩ := read_of_mem_keepFirst hq
  have hpnot := (mem_keepFirst.mp hp).2.2
  have hqnot := (mem_keepFirst.mp hq).2.2
  rcases Nat.lt_trichotomy p.1 q.1 with hlt | heq | hlt
  · exact absurd ⟨p.1, p.2, hpfirst, hlt, hpread, hkey⟩ hqnot
  · exact heq
  · exact absurd ⟨q.1, q.2, hqfirst, hlt, hqread, hkey.symm⟩ hpnot

/-! ### What is dropped -/

section
variable {busy : Nat → Bool} (hbusy : ∀ p x, read p = some x → busy p = true)
include hbusy

/-- No more is kept than there are busy places. -/
theorem length_keepFirst_le : (keepFirst key read first count).length ≤ ((List.range' first count).filter busy).length := by
  classical
  induction count with
  | zero => exact Nat.le_refl 0
  | succ count ih =>
    rw [List.range'_1_concat, List.filter_append, List.length_append]
    cases hread : read (first + count) with
    | none =>
      rw [keepFirst_of_none hread]
      omega
    | some x =>
      rw [keepFirst_succ hread, List.length_append]
      have hlast := hbusy _ _ hread
      split <;> simp [hlast] <;> omega

/-- Less is kept than there are busy places when a busy place gives nothing, or has a number that a lower one has. -/
theorem length_keepFirst_lt_iff :
    (keepFirst key read first count).length < ((List.range' first count).filter busy).length ↔
      ∃ p, first ≤ p ∧ p < first + count ∧ busy p = true ∧ ∀ x, read p = some x → HeldLower key read first p x := by
  classical
  induction count with
  | zero => simpa [keepFirst] using fun p h hlt => by omega
  | succ count ih =>
    have hle := length_keepFirst_le (key := key) (first := first) (count := count) hbusy
    have hlast : (∃ p, first ≤ p ∧ p < first + (count + 1) ∧ busy p = true ∧
          ∀ x, read p = some x → HeldLower key read first p x) ↔
        (∃ p, first ≤ p ∧ p < first + count ∧ busy p = true ∧ ∀ x, read p = some x → HeldLower key read first p x) ∨
          busy (first + count) = true ∧ ∀ x, read (first + count) = some x → HeldLower key read first (first + count) x := by
      grind
    rw [hlast, ← ih, List.range'_1_concat, List.filter_append, List.length_append]
    cases hread : read (first + count) with
    | none =>
      rw [keepFirst_of_none hread]
      cases hb : busy (first + count)
      · simp [hb]
      · simp [hb]
        omega
    | some x =>
      rw [keepFirst_succ hread, List.length_append]
      have hb := hbusy _ _ hread
      split <;> simp [*]

end
end

/-! ### The slots of a bucket (R27, R40) -/

/-- The record that a slot is read as. -/
def SlotRead.record : SlotRead → Option CardRecord
  | .occupied r => some r
  | _ => none

/-- A slot as its row is read. -/
def Store.slotRead (st : Store) (p : Nat) : SlotRead := ((st.cardSlots (p / 2))[p % 2]?).getD .free

theorem Store.length_cardSlots (st : Store) (row : Nat) : (st.cardSlots row).length = 2 := by
  unfold Store.cardSlots
  split <;> rfl

theorem Store.cardSlots_getElem (st : Store) (p : Nat) : (st.cardSlots (p / 2))[p % 2]? = some (st.slotRead p) := by
  have h := Nat.mod_lt p (show 0 < 2 by decide)
  rw [Store.slotRead, List.getElem?_eq_getElem (by rw [st.length_cardSlots]; exact h), Option.getD_some]

theorem Store.cardSlots_eq (st : Store) (row : Nat) :
    st.cardSlots row = [st.slotRead (2 * row), st.slotRead (2 * row + 1)] := by
  have h0 := st.cardSlots_getElem (2 * row)
  have h1 := st.cardSlots_getElem (2 * row + 1)
  rw [show 2 * row / 2 = row by omega, show 2 * row % 2 = 0 by omega] at h0
  rw [show (2 * row + 1) / 2 = row by omega, show (2 * row + 1) % 2 = 1 by omega] at h1
  have hlength := st.length_cardSlots row
  match hslots : st.cardSlots row, hlength with
  | [a, b], _ => simp_all

theorem Store.bucketReads_eq (st : Store) (b : Nat) : st.bucketReads b = (List.range' (4 * b) 4).map st.slotRead := by
  simp only [Store.bucketReads, Store.cardSlots_eq, List.range', List.map]
  rw [← Nat.mul_assoc, show 2 * (2 * b + 1) = 4 * b + 1 + 1 by omega]
  rfl

theorem scanSlots_keepFirst (read : Nat → SlotRead) (first count more : Nat) :
    scanSlots (first + count) ((List.range' (first + count) more).map read)
        (keepFirst CardRecord.number (fun p => (read p).record) first count) =
      keepFirst CardRecord.number (fun p => (read p).record) first (count + more) := by
  induction more generalizing count with
  | zero => rfl
  | succ more ih =>
    rw [List.range'_succ, List.map_cons, show count + (more + 1) = count + 1 + more by omega, ← ih]
    cases h : read (first + count) with
    | free => rw [scanSlots, keepFirst_of_none (by rw [h]; rfl)]; rfl
    | outOfRange => rw [scanSlots, keepFirst_of_none (by rw [h]; rfl)]; rfl
    | occupied r =>
      rw [scanSlots]
      split
      next hany => rw [keepFirst_of_any (by rw [h]; rfl) hany]; rfl
      next hany => rw [keepFirst_of_not_any (by rw [h]; rfl) (Bool.eq_false_iff.mpr hany)]; rfl

theorem Store.scanBucket_eq (st : Store) (b : Nat) :
    st.scanBucket b = keepFirst CardRecord.number (fun p => (st.slotRead p).record) (4 * b) 4 := by
  rw [Store.scanBucket, Store.bucketReads_eq]
  exact scanSlots_keepFirst st.slotRead (4 * b) 0 4

/-- The records that the scan takes from the card region. -/
def Store.scanTable (st : Store) : List (Nat × CardRecord) := (List.range bucketCount).flatMap st.scanBucket

/-- A slot's record is taken unless a lower slot of its bucket holds the number. -/
theorem Store.mem_scanBucket {st : Store} {b p : Nat} {r : CardRecord} : (p, r) ∈ st.scanBucket b ↔
    p / 4 = b ∧ (st.slotRead p).record = some r ∧
      ¬ HeldLower CardRecord.number (fun q => (st.slotRead q).record) (4 * b) p r := by
  rw [Store.scanBucket_eq, mem_keepFirst]
  exact and_congr_left fun _ => by omega

theorem Store.mem_scanTable {st : Store} {p : Nat} {r : CardRecord} : (p, r) ∈ st.scanTable ↔
    p < 2048 ∧ (st.slotRead p).record = some r ∧
      ¬ HeldLower CardRecord.number (fun q => (st.slotRead q).record) (4 * (p / 4)) p r := by
  simp only [Store.scanTable, List.mem_flatMap, List.mem_range, bucketCount, Store.mem_scanBucket]
  constructor
  · rintro ⟨b, hb, rfl, hread⟩
    exact ⟨by omega, hread⟩
  · rintro ⟨hp, hread⟩
    exact ⟨p / 4, by omega, rfl, hread⟩

theorem Store.ascending_scanTable (st : Store) : Ascending st.scanTable := by
  refine List.pairwise_flatMap.mpr ⟨fun b _ => ?_, List.pairwise_lt_range.imp fun {b c} hbc p hp q hq => ?_⟩
  · rw [Store.scanBucket_eq]
    exact ascending_keepFirst
  · have hpb := (Store.mem_scanBucket.mp hp).1
    have hqc := (Store.mem_scanBucket.mp hq).1
    omega

/-- The scan makes the table OPEN with the records taken, and counts them (R38, R40). -/
theorem Store.scanCards_slots (st : Store) (c : Cards) : (st.scanCards c).phase = .opened ∧
    (st.scanCards c).slots = st.scanTable ∧ (st.scanCards c).entries = (st.scanCards c).slots.length ∧
    (st.scanCards c).checkValue = ((st.scanCards c).slots.map (fun p => recordCrc p.2)).sum := by
  simp only [Store.scanCards, Store.scanTable, and_self]

/-- The records that the scan takes meet the law (R27, R38, R40). -/
theorem Store.scanCards_slotsLaw (st : Store) (c : Cards) : (st.scanCards c).SlotsLaw := by
  obtain ⟨-, hslots, hentries, hcheck⟩ := st.scanCards_slots c
  refine ⟨?rising, ?range, ?once, hentries, hcheck⟩ <;> rw [hslots]
  case rising => exact st.ascending_scanTable
  case range => exact fun _ hp => (Store.mem_scanTable.mp hp).1
  case once =>
    intro p hp q hq hbucket hnumber
    obtain ⟨b, -, hpb⟩ := List.mem_flatMap.mp hp
    obtain ⟨d, -, hqd⟩ := List.mem_flatMap.mp hq
    obtain rfl : b = d := by rw [← (Store.mem_scanBucket.mp hpb).1, ← (Store.mem_scanBucket.mp hqd).1, hbucket]
    rw [Store.scanBucket_eq] at hpb hqd
    exact keepFirst_once hpb hqd hnumber

/-! ### The positions of the revocation list (R35, R41) -/

/-- A position as its row is read. -/
def Store.positionRead (st : Store) (p : Nat) : Option CardNumber := ((st.rowPositions (p / 2))[p % 2]?).join

theorem Store.length_rowPositions (st : Store) (row : Nat) : (st.rowPositions row).length = 2 := by
  unfold Store.rowPositions
  split <;> rfl

theorem Store.rowPositions_getElem (st : Store) (p : Nat) :
    (st.rowPositions (p / 2))[p % 2]? = some (st.positionRead p) := by
  have h := Nat.mod_lt p (show 0 < 2 by decide)
  rw [Store.positionRead, List.getElem?_eq_getElem (by rw [st.length_rowPositions]; exact h), Option.join_some]

theorem Store.rowPositions_eq (st : Store) (row : Nat) :
    st.rowPositions row = [st.positionRead (2 * row), st.positionRead (2 * row + 1)] := by
  have h0 := st.rowPositions_getElem (2 * row)
  have h1 := st.rowPositions_getElem (2 * row + 1)
  rw [show 2 * row / 2 = row by omega, show 2 * row % 2 = 0 by omega] at h0
  rw [show (2 * row + 1) / 2 = row by omega, show (2 * row + 1) % 2 = 1 by omega] at h1
  have hlength := st.length_rowPositions row
  match hpositions : st.rowPositions row, hlength with
  | [a, b], _ => simp_all

theorem flatMap_pairs {α : Type} (f : Nat → α) (rows : Nat) :
    (List.range rows).flatMap (fun row => [f (2 * row), f (2 * row + 1)]) = (List.range' 0 (2 * rows)).map f := by
  induction rows with
  | zero => rfl
  | succ rows ih =>
    rw [List.range_succ, List.flatMap_append, ih, Nat.mul_succ, List.range'_1_concat, List.range'_1_concat]
    simp

theorem Store.positions_eq (st : Store) : st.positions = (List.range' 0 128).map st.positionRead := by
  rw [Store.positions, funext st.rowPositions_eq]
  exact flatMap_pairs st.positionRead 64

theorem scanPositions_keepFirst (read : Nat → Option CardNumber) (first count more : Nat) :
    scanPositions (first + count) ((List.range' (first + count) more).map read) (keepFirst id read first count) =
      keepFirst id read first (count + more) := by
  induction more generalizing count with
  | zero => rfl
  | succ more ih =>
    rw [List.range'_succ, List.map_cons, show count + (more + 1) = count + 1 + more by omega, ← ih]
    cases h : read (first + count) with
    | none => rw [scanPositions, keepFirst_of_none h]; rfl
    | some c =>
      rw [scanPositions]
      split
      next hany => rw [keepFirst_of_any h hany]; rfl
      next hany => rw [keepFirst_of_not_any h (Bool.eq_false_iff.mpr hany)]; rfl

theorem Store.scanRevocations_eq (st : Store) : st.scanRevocations = keepFirst id st.positionRead 0 128 := by
  rw [Store.scanRevocations, Store.positions_eq]
  exact scanPositions_keepFirst st.positionRead 0 0 128

/-- The scan takes the numbers kept, and counts them (R41). -/
theorem Store.scanCards_revoked (st : Store) (c : Cards) :
    (st.scanCards c).revoked = keepFirst id st.positionRead 0 128 ∧
      (st.scanCards c).revocations = (st.scanCards c).revoked.length :=
  ⟨st.scanRevocations_eq, rfl⟩

/-- The numbers that the scan takes meet the law (R35, R41). -/
theorem Store.scanCards_revokedLaw (st : Store) (c : Cards) : (st.scanCards c).RevokedLaw := by
  obtain ⟨hrevoked, hcount⟩ := st.scanCards_revoked c
  refine ⟨?rising, ?range, ?once, hcount⟩ <;> rw [hrevoked]
  case rising => exact ascending_keepFirst
  case range => exact fun _ hp => Nat.lt_of_lt_of_eq (read_of_mem_keepFirst hp).2.1 rfl
  case once => exact fun _ hp _ hq => keepFirst_once hp hq

end Sys2Proof.Machine
end

section
/-! O60: every step keeps the card table's law (R27, R35, R38). Most commands leave the card table and the unit phase as they
are; a command of the card table keeps the law of the records and that of the revocation list; a start holds neither. -/

open Sys2Proof Sys2Proof.Machine

namespace Sys2Proof.Machine

/-! ### What keeps the law -/

/-- The law is about the card table and the unit phase alone. -/
theorem Node.CardLaw.congr {n m : Node} (h : n.CardLaw) (hm : m.tablePart = n.tablePart) : m.CardLaw := by
  obtain ⟨hcards, hphase⟩ := Prod.mk.inj hm
  rw [Node.cardLaw_iff] at h ⊢
  rwa [hcards, hphase]

/-- The unit phase stays, and each half of the card table's law is kept. -/
structure Node.KeepsTable (n m : Node) : Prop where
  phase   : m.control.phase = n.control.phase
  slots   : n.cards.SlotsLaw → m.cards.SlotsLaw
  revoked : n.cards.RevokedLaw → m.cards.RevokedLaw

theorem Node.KeepsTable.of_tablePart {n m : Node} (h : m.tablePart = n.tablePart) : n.KeepsTable m := by
  obtain ⟨hcards, hphase⟩ := Prod.mk.inj h
  exact ⟨hphase, fun h => hcards ▸ h, fun h => hcards ▸ h⟩

theorem Node.KeepsTable.refl (n : Node) : n.KeepsTable n := .of_tablePart rfl

theorem Node.KeepsTable.trans {n m k : Node} (h : n.KeepsTable m) (h' : m.KeepsTable k) : n.KeepsTable k :=
  ⟨h'.phase.trans h.phase, h'.slots ∘ h.slots, h'.revoked ∘ h.revoked⟩

/-- A card table whose records and revocation list are those before keeps the law. -/
theorem Node.KeepsTable.of_same {n m : Node} (hp : m.control.phase = n.control.phase) (hs : m.cards.slots = n.cards.slots)
    (he : m.cards.entries = n.cards.entries) (hv : m.cards.checkValue = n.cards.checkValue)
    (hr : m.cards.revoked = n.cards.revoked) (hn : m.cards.revocations = n.cards.revocations) : n.KeepsTable m :=
  ⟨hp, fun h => h.congr hs he hv, fun h => h.congr hr hn⟩

/-- While the configuration is read no station acts, so a station's command has the table's phase to itself. -/
theorem Node.KeepsTable.cardLaw {n m : Node} (h : n.KeepsTable m) (hlive : n.live = true) (hlaw : n.CardLaw) : m.CardLaw := by
  have hphase : n.control.phase ≠ .reading := by simp_all [Node.live]
  rw [Node.cardLaw_iff] at hlaw ⊢
  obtain ⟨hslots, hrevoked, -⟩ := hlaw
  exact ⟨h.slots hslots, h.revoked hrevoked, fun hreading => absurd (h.phase.symm.trans hreading) hphase⟩

/-! ### What kinds of command keep it -/

/-- The outcome of a command keeps the law. -/
def State.CardLawKeptBy (s : State) (o : Host.Outcome State Fault Refusal) : Prop :=
  ∀ s', o = .next s' → s.node.CardLaw → s'.node.CardLaw

section
variable {s : State} {dt : Nat} {f : Node → Node}

theorem keeps_perform (hf : ∀ n : Node, n.CardLaw → (f n).CardLaw) : s.CardLawKeptBy (s.perform dt f) := by
  rintro s' h hlaw
  rw [State.perform_next.mp h]
  exact hf _ (hlaw.congr rfl)

theorem keeps_live_law (hf : ∀ n : Node, n.CardLaw → (f n).CardLaw) :
    s.CardLawKeptBy (s.perform dt (fun n => n.whenLive f)) :=
  keeps_perform fun n h => by
    unfold Node.whenLive
    split
    · exact hf n h
    · exact h

theorem keeps_live (hf : ∀ n, (f n).tablePart = n.tablePart) : s.CardLawKeptBy (s.perform dt (fun n => n.whenLive f)) :=
  keeps_live_law fun n h => h.congr (hf n)

theorem keeps_station (hf : ∀ n, (f n).tablePart = n.tablePart) :
    s.CardLawKeptBy (s.perform dt (fun n => n.whenStation f)) :=
  keeps_perform fun n h => h.congr (by unfold Node.whenStation; split <;> simp [hf])

theorem keeps_relay (hf : ∀ n, (f n).tablePart = n.tablePart) : s.CardLawKeptBy (s.perform dt (fun n => n.whenRelay f)) :=
  keeps_perform fun n h => h.congr (by unfold Node.whenRelay; split <;> simp [hf])

theorem keeps_press (hf : ∀ n, (f n).tablePart = n.tablePart) : s.CardLawKeptBy (s.perform dt (fun n => n.whenPress f)) :=
  keeps_station fun n => by split <;> simp [hf]

theorem keeps_table (hf : ∀ n : Node, n.KeepsTable (f n)) : s.CardLawKeptBy (s.perform dt (fun n => n.whenStation f)) :=
  keeps_perform fun n h => by
    unfold Node.whenStation
    split
    next hacts => exact (hf n).cardLaw (by simp_all) h
    · exact h

end

/-! ### Commands of the other units -/

theorem ite_tablePart {n m : Node} {c : Prop} [Decidable c] (h : m.tablePart = n.tablePart) :
    (if c then m else n).tablePart = n.tablePart := by
  split
  · exact h
  · rfl

theorem Node.takingClaim_tablePart (n : Node) {kind : Kind} {f : Node → Received → Node}
    (hf : ∀ n r, (f n r).tablePart = n.tablePart) : (n.takingClaim kind f).tablePart = n.tablePart :=
  n.taking_tablePart kind fun m r => ite_tablePart (hf m r)

theorem Node.atSlot_tablePart (n : Node) {f : Node → Flight → PingSlot → Node}
    (hf : ∀ n fl sl, (f n fl sl).tablePart = n.tablePart) : (n.atSlot f).tablePart = n.tablePart := by
  unfold Node.atSlot
  (repeat' split) <;> simp [hf]

theorem Node.depotChars_tablePart (n : Node) (chars : List HeardChar) : (n.depotChars chars).tablePart = n.tablePart :=
  (foldl_tablePart Node.depotChar_tablePart chars n.dropStaleFrame).trans n.dropStaleFrame_tablePart

/-! ### Commands of the card table -/

/-- What follows an operation keeps the law (R29). -/
theorem Node.settleUpdate_keepsTable (n : Node) (u : CardUpdate) : n.KeepsTable (n.settleUpdate u) := by
  obtain ⟨update, hsame⟩ := n.settleUpdate_same u
  exact .of_same hsame.phase (congrArg Cards.slots hsame.cards :) (congrArg Cards.entries hsame.cards :)
    (congrArg Cards.checkValue hsame.cards :) (congrArg Cards.revoked hsame.cards :) (congrArg Cards.revocations hsame.cards :)

theorem Node.takeUpdate_keepsTable (n : Node) : n.KeepsTable n.takeUpdate := by
  unfold Node.takeUpdate
  split
  · exact n.settleUpdate_keepsTable _
  · exact .refl n

theorem Node.updateFault_tablePart (n : Node) (index : Nat) (card : CardNumber) (reason : FaultReason) :
    (n.updateFault index card reason).tablePart = n.tablePart := n.offerOnly_tablePart _ _

/-- Working an operation keeps the law when the operation does (R29). -/
theorem Node.workOp_keepsTable (n : Node) {f : Node → Nat → CardOp → Option Node}
    (hf : ∀ {n m : Node} {index : Nat} {op : CardOp}, f n index op = some m → n.KeepsTable m) : n.KeepsTable (n.workOp f) := by
  rcases n.workOp_cases f with h | ⟨index, op, m, u, hm, h⟩ <;> rw [h]
  · exact .refl n
  · exact (hf hm).trans (m.settleUpdate_keepsTable u)

section
variable {n m : Node} {index : Nat} {op : CardOp}

theorem Node.workAdd_keepsTable (h : n.workAdd index op = some m) : n.KeepsTable m := by
  cases op with
  | add number cls status rights tariff =>
    cases hr : addRecord number cls status rights tariff with
    | none => exact Option.some.inj ((Node.workAdd_malformed hr).symm.trans h) ▸ .of_tablePart (n.updateFault_tablePart _ _ _)
    | some r =>
      cases hs : n.cards.slotFor number with
      | none => exact Option.some.inj ((Node.workAdd_full hr hs).symm.trans h) ▸ .of_tablePart (n.updateFault_tablePart _ _ _)
      | some slot =>
        obtain rfl := Option.some.inj ((Node.workAdd_of hr hs).symm.trans h)
        exact ⟨rfl, fun hlaw => hlaw.put (addRecord_number hr ▸ hs), fun hlaw => hlaw.congr rfl rfl⟩
  | _ => cases h

theorem Node.workRemove_keepsTable (h : n.workRemove index op = some m) : n.KeepsTable m := by
  cases op with
  | remove number =>
    cases hs : slotHolding n.cards.slots number with
    | none => exact Option.some.inj ((Node.workRemove_absent hs).symm.trans h) ▸ .refl n
    | some found =>
      obtain rfl := Option.some.inj ((Node.workRemove_of hs).symm.trans h)
      exact ⟨rfl, fun hlaw => hlaw.free (slotHolding_some hs).1, fun hlaw => hlaw.congr rfl rfl⟩
  | _ => cases h

theorem Node.workRevokeAdd_keepsTable (h : n.workRevokeAdd index op = some m) : n.KeepsTable m := by
  cases op with
  | revokeAdd number =>
    cases hheld : n.cards.revoked.any (fun p => p.2 == number) with
    | true => exact Option.some.inj ((Node.workRevokeAdd_held hheld).symm.trans h) ▸ .refl n
    | false =>
      cases hs : lowestFree n.cards.revoked 0 128 with
      | none =>
        exact Option.some.inj ((Node.workRevokeAdd_full hheld hs).symm.trans h) ▸ .of_tablePart (n.updateFault_tablePart _ _ _)
      | some position =>
        obtain rfl := Option.some.inj ((Node.workRevokeAdd_of hheld hs).symm.trans h)
        exact ⟨rfl, fun hlaw => hlaw.congr rfl rfl rfl, fun hlaw => hlaw.revoke (by simpa using hheld) hs⟩
  | _ => cases h

theorem Node.workRevokeRemove_keepsTable (h : n.workRevokeRemove index op = some m) : n.KeepsTable m := by
  cases op with
  | revokeRemove number =>
    cases hs : n.cards.revoked.find? (fun p => p.2 == number) with
    | none => exact Option.some.inj ((Node.workRevokeRemove_absent hs).symm.trans h) ▸ .refl n
    | some p =>
      obtain rfl := Option.some.inj ((Node.workRevokeRemove_of hs).symm.trans h)
      exact ⟨rfl, fun hlaw => hlaw.congr rfl rfl rfl, fun hlaw => hlaw.unrevoke (List.mem_of_find?_eq_some hs)⟩
  | _ => cases h

end

/-- The beginning of a clear leaves the slots and positions (R33, R36). -/
theorem Node.workClear_keepsTable (n : Node) (op : CardOp) (phase : TablePhase) : n.KeepsTable (n.workClear op phase) := by
  rcases n.workClear_cases op phase with h | ⟨-, rest, h⟩ <;> rw [h]
  · exact .refl n
  · have hleaves : n.updateLeaves.tablePart = n.tablePart := by
      unfold Node.updateLeaves
      (repeat' split) <;> rfl
    exact (KeepsTable.of_tablePart hleaves).trans (.of_same rfl rfl rfl rfl rfl rfl)

/-- A clear's row leaves the slots and positions (R33, R36). -/
theorem Node.clearRow_keepsTable (n : Node) : n.KeepsTable n.clearRow := by
  unfold Node.clearRow
  (repeat' split)
  · exact .of_same rfl rfl rfl rfl rfl rfl
  · exact .refl n
  · exact .refl n

theorem Node.resumeHeld_keepsTable (n : Node) : n.KeepsTable n.resumeHeld := by
  unfold Node.resumeHeld
  split
  · exact .refl n
  · exact n.settleUpdate_keepsTable _

/-- The end of a clear leaves one half empty and the other as it was (R34, R36). -/
theorem Node.clearProgrammed_keepsTable (n : Node) (w : RowWrite) : n.KeepsTable (n.clearProgrammed w) := by
  rcases n.clearProgrammed_cases w with h | ⟨-, h⟩ | ⟨-, h⟩ <;> rw [h]
  · exact .refl n
  · have hcleared : n.KeepsTable (n.withCards n.cards.cleared) :=
      ⟨rfl, fun _ => Cards.slotsLaw_empty rfl rfl rfl, fun hlaw => hlaw.congr rfl rfl⟩
    exact hcleared.trans (Node.resumeHeld_keepsTable _)
  · have hcleared : n.KeepsTable (n.withCards n.cards.revokeCleared) :=
      ⟨rfl, fun hlaw => hlaw.congr rfl rfl rfl, fun _ => Cards.revokedLaw_empty rfl rfl⟩
    exact hcleared.trans (Node.resumeHeld_keepsTable _)

theorem Node.programEnds_keepsTable (n : Node) : n.KeepsTable n.programEnds := by
  cases ht : n.store.programEnds with
  | none => simpa [Node.programEnds, ht] using KeepsTable.refl n
  | some t =>
    cases hs : n.store.staging with
    | nil => simpa [Node.programEnds, ht, hs] using KeepsTable.refl n
    | cons w staging =>
      exact (KeepsTable.of_tablePart (n.programmedAt_tablePart t w)).trans
        ((Node.clearProgrammed_keepsTable _ w).trans (.of_tablePart (Node.programEnds_tablePart ht hs)))

@[simp] theorem Node.resumeEvaluation_tablePart (n : Node) : n.resumeEvaluation.tablePart = n.tablePart := by
  unfold Node.resumeEvaluation
  split <;> simp

/-- The end of the scan leaves the table with what the rows hold (R38, R40, R41). -/
theorem Node.cardScanEnd_keepsTable (n : Node) : n.KeepsTable n.cardScanEnd := by
  unfold Node.cardScanEnd
  split
  · have hscan : n.KeepsTable (n.withCards (n.store.scanCards n.cards)) :=
      ⟨rfl, fun _ => n.store.scanCards_slotsLaw _, fun _ => n.store.scanCards_revokedLaw _⟩
    exact hscan.trans (.of_tablePart (by simp only [pressTrigger_tablePart, evaluateStart_tablePart, resumeEvaluation_tablePart]))
  · exact .refl n

/-! ### Starts -/

/-- A start holds no card and no revoked number, and the scan is to come (R188). -/
theorem Node.startUnits_cardLaw (n : Node) (cause : Cause) : (n.startUnits cause).CardLaw :=
  (Node.cardLaw_iff _).mpr ⟨Cards.slotsLaw_empty rfl rfl rfl, Cards.revokedLaw_empty rfl rfl, fun _ => rfl⟩

theorem Node.holdReset_cardLaw (n : Node) (h : n.CardLaw) : n.holdReset.CardLaw := by
  unfold Node.holdReset
  dsimp only
  split
  · exact Node.startUnits_cardLaw _ _
  · exact h.congr rfl

theorem Node.releaseReset_cardLaw (n : Node) (h : n.CardLaw) : n.releaseReset.CardLaw := by
  unfold Node.releaseReset
  dsimp only
  split
  · exact Node.startUnits_cardLaw _ _
  · exact h.congr rfl

theorem Node.restart_cardLaw (n : Node) (h : n.CardLaw) :
    (n.taking .restart (fun n _ => n.startUnits .telegram)).CardLaw := by
  rcases n.taking_cases .restart (fun n _ => n.startUnits .telegram) with htaking | ⟨r, -, -, htaking⟩ <;> rw [htaking]
  · exact h
  · exact Node.startUnits_cardLaw _ _

/-- In SAFE, as once configured, the card table is as it was, and the read is over. -/
theorem Node.enterSafe_table (n : Node) (settings : Settings) :
    (n.enterSafe settings).cards = n.cards ∧ (n.enterSafe settings).control.phase = .safe := ⟨rfl, rfl⟩

theorem Node.configured_table (n : Node) (settings : Settings) (clamped : Bool) :
    (n.configured settings clamped).tablePart = (n.cards, .running) := by
  unfold Node.configured
  dsimp only
  split
  · rw [evaluateStart_tablePart]
    rfl
  · rfl

/-- The outcome of the read leaves the card table as it is, and the read over. -/
theorem Node.configurationRead_table (n : Node) (block : List Byte) : n.configurationRead block = n ∨
    (n.configurationRead block).cards = n.cards ∧ (n.configurationRead block).control.phase ≠ .reading := by
  unfold Node.configurationRead
  split
  · split
    next settings clamped _ =>
      obtain ⟨hcards, hphase⟩ := Prod.mk.inj (n.configured_table settings clamped)
      exact .inr ⟨hcards, by rw [hphase]; nofun⟩
    next settings _ =>
      obtain ⟨hcards, hphase⟩ := n.enterSafe_table settings
      exact .inr ⟨hcards, by rw [hphase]; nofun⟩
  · exact .inl rfl

theorem Node.configurationRead_cardLaw (n : Node) (block : List Byte) (h : n.CardLaw) : (n.configurationRead block).CardLaw := by
  rcases n.configurationRead_table block with hsame | ⟨hcards, hphase⟩
  · exact hsame.symm ▸ h
  · rw [Node.cardLaw_iff] at h ⊢
    rw [hcards]
    exact ⟨h.1, h.2.1, fun hreading => absurd hreading hphase⟩

/-! ### Every command -/

/-- Every command keeps the card table's law. -/
theorem exec_keepsCardLaw (i : Instr) (s : State) : s.CardLawKeptBy (exec i s) := by
  cases i with
  | powerOn _ => exact keeps_perform fun _ _ => Node.startUnits_cardLaw _ _
  | resetPin _ => exact keeps_perform fun n => n.releaseReset_cardLaw
  | restart _ => exact keeps_live_law Node.restart_cardLaw
  | configurationRead _ block =>
    exact keeps_perform (f := (Node.configurationRead · block)) fun n => n.configurationRead_cardLaw block
  | soundingDue _ reading => exact keeps_station fun n => n.soundingDue_tablePart reading
  | pingSlotStart _ => exact keeps_station fun n => by split <;> simp
  | burstEnd _ => exact keeps_station fun n => n.atSlot_tablePart Node.burstEnd_tablePart
  | blankingEnd _ => exact keeps_station fun n => n.atSlot_tablePart Node.blankingEnd_tablePart
  | echoEdge _ => exact keeps_station fun n => n.atSlot_tablePart Node.echoEdge_tablePart
  | pingWindowEnd _ => exact keeps_station fun n => n.atSlot_tablePart Node.windowEnd_tablePart
  | soundingEnd _ => exact keeps_station Node.soundingEnd_tablePart
  | periodicTimerExpiry _ => exact keeps_station Node.periodicExpiry_tablePart
  | cardRead _ card => exact keeps_station fun n => n.cardRead_tablePart card
  | readError _ => exact keeps_station fun n => by split <;> simp
  | windowExpiry _ => exact keeps_station Node.windowExpiry_tablePart
  | lockPullInEnd _ => exact keeps_station Node.pullInEnd_tablePart
  | deferredReleaseExpiry _ => exact keeps_station Node.deferredExpiry_tablePart
  | servicePeriodExpiry _ => exact keeps_station Node.serviceExpiry_tablePart
  | indicationExpiry _ => exact keeps_station Node.indicationExpiry_tablePart
  | buzzerToneEnd _ => exact keeps_station Node.toneEnd_tablePart
  | hatchSettled _ isOpen reading => exact keeps_station fun n => n.hatchSettles_tablePart isOpen reading
  | hatchOpen _ => exact keeps_station Node.hatchOpens_tablePart
  | hatchClosed _ reading => exact keeps_station fun n => n.hatchCloses_tablePart reading
  | hatchStuck _ => exact keeps_station Node.hatchSticks_tablePart
  | liftSettled _ isLifted reading => exact keeps_station fun n => n.liftSettles_tablePart isLifted reading
  | lift _ => exact keeps_station Node.lifts_tablePart
  | seat _ reading => exact keeps_station fun n => n.seats_tablePart reading
  | cardUpdate _ => exact keeps_table Node.takeUpdate_keepsTable
  | add _ => exact keeps_table fun n => n.workOp_keepsTable Node.workAdd_keepsTable
  | remove _ => exact keeps_table fun n => n.workOp_keepsTable Node.workRemove_keepsTable
  | clear _ => exact keeps_table fun n => n.workClear_keepsTable .clear .clearing
  | revokeAdd _ => exact keeps_table fun n => n.workOp_keepsTable Node.workRevokeAdd_keepsTable
  | revokeRemove _ => exact keeps_table fun n => n.workOp_keepsTable Node.workRevokeRemove_keepsTable
  | revokeClear _ => exact keeps_table fun n => n.workClear_keepsTable .revokeClear .revokeClearing
  | clearRowWrite _ => exact keeps_table Node.clearRow_keepsTable
  | cardTableScanEnd _ => exact keeps_table Node.cardScanEnd_keepsTable
  | rowProgramEnd _ => exact keeps_table Node.programEnds_keepsTable
  | recordAppend _ => exact keeps_station Node.appendOldest_tablePart
  | accountingWrite _ => exact keeps_station Node.writeAccounting_tablePart
  | confirmMarkWrite _ => exact keeps_station Node.writeMark_tablePart
  | logScanEnd _ => exact keeps_station Node.logScanEnd_tablePart
  | harvestRequest _ =>
    exact keeps_station fun n => ite_tablePart (n.taking_tablePart .harvestRequest fun n _ => n.fixHarvest_tablePart _ _ _)
  | harvestAnswer _ => exact keeps_station fun n => n.offerClass3_tablePart .harvest
  | harvestConfirm _ =>
    exact keeps_station fun n => ite_tablePart (n.taking_tablePart .harvestConfirm fun n _ => n.confirm_tablePart _)
  | tallyNotice _ =>
    exact keeps_station fun n => ite_tablePart (n.taking_tablePart .tallyNotice Node.hearTally_tablePart)
  | clockSecond _ => exact keeps_station Node.clockSecond_tablePart
  | time _ => exact keeps_live fun n => ite_tablePart (n.taking_tablePart .time Node.hearTime_tablePart)
  | pressClaim _ => exact keeps_station fun n => n.takingClaim_tablePart fun _ _ => rfl
  | pressRelease _ => exact keeps_station fun n => n.takingClaim_tablePart fun _ _ => rfl
  | claimEntryExpiry _ => exact keeps_press Node.claimExpiry_tablePart
  | retryTimerExpiry _ => exact keeps_press Node.retryExpiry_tablePart
  | inhibitTimerExpiry _ => exact keeps_press Node.inhibitExpiry_tablePart
  | softStartStep _ => exact keeps_press Node.softStep_tablePart
  | loadTrip _ => exact keeps_press Node.loadTrip_tablePart
  | endSwitchActive event => exact keeps_press fun n => n.endSwitch_tablePart event.isActive
  | forwardTimeLimit _ => exact keeps_press Node.forwardLimitReached_tablePart
  | dwellEnd _ => exact keeps_press Node.dwellEnd_tablePart
  | homeSwitchActive _ reading => exact keeps_press fun n => n.homeActive_tablePart reading
  | reverseTimeLimit _ => exact keeps_press Node.reverseLimitReached_tablePart
  | homingDriveStart _ => exact keeps_press Node.homingStart_tablePart
  | homeSwitchSettled _ isActive reading => exact keeps_press fun n => n.homeSettles_tablePart isActive reading
  | lineIdle _ => exact keeps_live Node.lineIdle_tablePart
  | deferWaitEnd _ => exact keeps_live Node.deferEnd_tablePart
  | collision _ => exact keeps_live Node.collide_tablePart
  | transmissionSent _ supplyLow => exact keeps_live fun n => n.sent_tablePart supplyLow
  | receptionEnd _ normal inverted => exact keeps_live fun n => n.receptionEnds_tablePart normal inverted
  | silenceTimerExpiry _ => exact keeps_live Node.silenceExpiry_tablePart
  | correctionTimerExpiry _ => exact keeps_live Node.correctionExpiry_tablePart
  | noticeTimerExpiry _ => exact keeps_station Node.noticeExpiry_tablePart
  | fillNotice _ => exact keeps_station fun n => n.taking_tablePart .fillNotice Node.hearNotice_tablePart
  | viewEntryExpiry _ => exact keeps_station Node.viewExpiry_tablePart
  | redirectNotice _ => exact keeps_station fun n => n.taking_tablePart .redirectNotice Node.hearRedirect_tablePart
  | expectEntryExpiry _ => exact keeps_station Node.expectExpiry_tablePart
  | resendTimerExpiry _ => exact keeps_station Node.resendExpiry_tablePart
  | lapseRestExpiry _ => exact keeps_station Node.lapseExpiry_tablePart
  | holdOffExpiry _ => exact keeps_station Node.holdOffExpiry_tablePart
  | callAnswer _ => exact keeps_station fun n => n.taking_tablePart .callAnswer fun n _ => n.hearAnswer_tablePart _
  | call _ => exact keeps_station fun n => n.taking_tablePart .call Node.hearCall_tablePart
  | callJoin _ => exact keeps_station fun n => n.taking_tablePart .callJoin Node.hearJoin_tablePart
  | depotFrame _ chars => exact keeps_relay fun n => n.depotChars_tablePart chars
  | depotFrameTimeout _ => exact keeps_relay Node.frameTimeout_tablePart
  | depotToLineOffer _ => exact keeps_relay Node.offerFromDepot_tablePart
  | depotFrameSend _ cts => exact keeps_relay fun n => n.beginFrame_tablePart cts
  | depotFrameEnd _ => exact keeps_relay Node.endFrame_tablePart
  | answerTimerExpiry _ => exact keeps_relay Node.answerExpiry_tablePart
  | relayClockSecond _ => exact keeps_relay fun _ => rfl
  | originationTimerExpiry _ => exact keeps_relay Node.originate_tablePart
  | statusRequest _ => exact keeps_live fun n => n.taking_tablePart .statusRequest Node.hearStatusRequest_tablePart
  | statusAnswer _ => exact keeps_station fun n => n.offerClass3_tablePart .status
  | resetPinHeld _ => exact keeps_perform fun n => n.holdReset_cardLaw
  | supplyFails _ => exact keeps_perform fun _ _ => Node.startUnits_cardLaw _ _
  | receptionBegins _ => exact keeps_live Node.receptionBegins_tablePart
  | homeSwitchChange _ isActive => exact keeps_press fun n => n.homeChanges_tablePart isActive

end Sys2Proof.Machine

/-- Settles O60: the command at the front keeps the law, whatever it is. -/
theorem cardLawIsKept : Obligations.CardLawIsKept := by
  intro s s' h
  unfold step at h
  split at h
  · obtain rfl := Host.Outcome.next.inj h
    exact id
  next i rest _ => exact exec_keepsCardLaw i ⟨s.node, rest⟩ s' h
end

section
/-! O44: the rows of the store read back (R27, R35, R87, R91, R92, R193). Numbers are read back from their bytes, then each part
of a row from its bytes, then the rows. -/

open Sys2Proof Sys2Proof.Machine

namespace Sys2Proof.Machine

/-! ### Numbers in bytes (chapter 12) -/

@[simp] theorem length_bytesOf (n x : Nat) : (bytesOf n x).length = n := by
  induction n generalizing x with
  | zero => rfl
  | succ n ih => rw [bytesOf, List.length_cons, ih]

theorem numberOf_bytesOf {n x : Nat} (h : x < 256 ^ n) : numberOf (bytesOf n x) = x := by
  induction n generalizing x with
  | zero => simp_all [bytesOf, numberOf]
  | succ n ih =>
    rw [bytesOf, numberOf, ih (Nat.div_lt_of_lt_mul (by rwa [Nat.pow_succ'] at h)), BitVec.toNat_ofNat]
    exact Nat.mod_add_div x 256

/-- The field behind other bytes. -/
theorem field_append {front rest : List Byte} {place n : Nat} (h : front.length ≤ place) :
    field (front ++ rest) place n = field rest (place - front.length) n := by
  rw [field, field, List.drop_append, List.drop_eq_nil_of_le h, List.nil_append]

/-- The field behind a number. -/
theorem field_bytesOf_append {k x place n : Nat} {rest : List Byte} (h : k ≤ place) :
    field (bytesOf k x ++ rest) place n = field rest (place - k) n := by
  rw [field_append (by simpa using h), length_bytesOf]

/-- A number reads back as the field that it was written into. -/
theorem field_bytesOf {n x : Nat} {rest : List Byte} (h : x < 256 ^ n) : field (bytesOf n x ++ rest) 0 n = x := by
  rw [field, List.drop_zero, List.take_left' (length_bytesOf n x), numberOf_bytesOf h]

theorem field_word {x : Nat} (h : x ≤ 65535) (rest : List Byte) : field (bytesOf 2 x ++ rest) 0 2 = x :=
  field_bytesOf (Nat.lt_succ_of_le h)

/-- A number that ends the bytes reads back too. -/
theorem field_word_last {x : Nat} (h : x ≤ 65535) : field (bytesOf 2 x) 0 2 = x := by
  rw [← List.append_nil (bytesOf 2 x), field_word h]

theorem field_triple {x : Nat} (h : x ≤ 16777215) (rest : List Byte) : field (bytesOf 3 x ++ rest) 0 3 = x :=
  field_bytesOf (Nat.lt_succ_of_le h)

theorem field_cons (b : Byte) (rest : List Byte) (place n : Nat) : field (b :: rest) (place + 1) n = field rest place n := rfl

theorem field_byte (b : Byte) (rest : List Byte) : field (b :: rest) 0 1 = b.toNat := rfl

/-! ### The row check (R87, R193) -/

theorem length_withRowCheck (content : List Byte) : (withRowCheck content).length = content.length + 1 := by
  simp [withRowCheck]

theorem rowCheckPasses_withRowCheck {content : List Byte} (h : content.length = 15) :
    rowCheckPasses (withRowCheck content) = true := by
  have htake : (withRowCheck content).take 15 = content := List.take_left' h
  simp [rowCheckPasses, htake]

/-! ### Slots and positions (R27, R35) -/

theorem length_slotContent (slot : Option CardRecord) : (slotContent slot).length = 7 := by
  cases slot with
  | none => rfl
  | some r => simp [slotContent, slotBytes]

theorem cardRow_slots (a b : Option CardRecord) : (cardRow a b).length = 16 ∧
    (cardRow a b).take 7 = slotContent a ∧ ((cardRow a b).drop 7).take 7 = slotContent b := by
  have ha := length_slotContent a
  have hb := length_slotContent b
  refine ⟨by simp [cardRow, length_withRowCheck, ha, hb], ?_, ?_⟩
  · simp only [cardRow, withRowCheck, List.append_assoc]
    exact List.take_left' ha
  · simp only [cardRow, withRowCheck, List.append_assoc]
    rw [List.drop_left' ha]
    exact List.take_left' hb

theorem readSlot_free : readSlot (slotContent none) = .free := by decide

/-- The flags byte of a slot holds class and status (12.3). -/
theorem slotFlags (cls : CardClass) (status : CardStatus) :
    let flags := (BitVec.ofNat 8 (cls.code + bit (status == .suspended) 3 + 128)).toNat
    ¬ flags < 128 ∧ CardClass.ofCode (flags % 8) = some cls ∧
      (if flags / 8 % 2 = 1 then CardStatus.suspended else .valid) = status := by
  cases cls <;> cases status <;> decide

/-- The two low bytes of a slot hold rights, allowance and band within their ranges (12.3). -/
theorem slotBytes_rights (r : CardRecord) : field (slotBytes r) 5 1 = r.rights.toNat ∧ r.rights.toNat < 32 := by
  have hrights : r.rights.toNat < 32 := r.rights.isLt
  refine ⟨?_, hrights⟩
  rw [slotBytes, field_bytesOf_append (by decide), field_cons, field_byte, BitVec.toNat_setWidth, Nat.mod_eq_of_lt (by omega)]

theorem slotBytes_tariff (r : CardRecord) :
    field (slotBytes r) 6 1 = r.allowance.toNat + 16 * r.band.toNat ∧ r.allowance.toNat < 16 ∧ r.band.toNat < 4 := by
  have hallowance : r.allowance.toNat < 16 := r.allowance.isLt
  have hband : r.band.toNat < 4 := r.band.isLt
  refine ⟨?_, hallowance, hband⟩
  rw [slotBytes, field_bytesOf_append (by decide), field_cons, field_cons, field_byte, BitVec.toNat_ofNat,
    Nat.mod_eq_of_lt (by omega)]

/-- An occupied slot reads back its record. -/
theorem readSlot_slotContent (r : CardRecord) : readSlot (slotContent (some r)) = .occupied r := by
  have hnumber : field (slotBytes r) 0 4 = r.number.toNat := field_bytesOf r.number.isLt
  obtain ⟨hflags, hcls, hstatus⟩ := slotFlags r.cls r.status
  have hflagsByte : field (slotBytes r) 4 1 =
      (BitVec.ofNat 8 (r.cls.code + bit (r.status == .suspended) 3 + 128)).toNat := field_bytesOf_append (Nat.le_refl 4)
  rw [← hflagsByte] at hflags hcls hstatus
  obtain ⟨hrights, hrightsLt⟩ := slotBytes_rights r
  obtain ⟨htariff, hallowance, hband⟩ := slotBytes_tariff r
  have hrange : ¬ (32 ≤ r.rights.toNat ∨ 64 ≤ r.allowance.toNat + 16 * r.band.toNat) := by omega
  have hlow : (r.allowance.toNat + 16 * r.band.toNat) % 16 = r.allowance.toNat := by omega
  have hhigh : (r.allowance.toNat + 16 * r.band.toNat) / 16 = r.band.toNat := by omega
  simp only [slotContent, readSlot, hflags, hcls, hnumber, hrights, htariff, hrange, hlow, hhigh, if_false,
    BitVec.ofNat_toNat, BitVec.setWidth_eq]
  exact congrArg (fun status => SlotRead.occupied { r with status := status }) hstatus

theorem length_positionBytes (position : Option CardNumber) : (positionBytes position).length = 5 := by
  cases position with
  | none => rfl
  | some c => simp [positionBytes]

/-- A position reads back its number. -/
theorem readPosition_positionBytes (position : Option CardNumber) : readPosition (positionBytes position) = position := by
  cases position with
  | none => rfl
  | some c =>
    have hnumber : field (positionBytes (some c)) 0 4 = c.toNat := field_bytesOf c.isLt
    have hmarker : field (positionBytes (some c)) 4 1 = 1 := field_bytesOf_append (Nat.le_refl 4)
    simp [readPosition, hnumber, hmarker]

theorem revocationRow_positions (a b : Option CardNumber) : (revocationRow a b).length = 16 ∧
    (revocationRow a b).take 5 = positionBytes a ∧ ((revocationRow a b).drop 5).take 5 = positionBytes b := by
  have ha := length_positionBytes a
  have hb := length_positionBytes b
  simp only [revocationRow, length_withRowCheck]
  refine ⟨by simp [ha, hb], ?_, ?_⟩ <;> simp only [withRowCheck, List.append_assoc]
  · exact List.take_left' ha
  · rw [List.drop_left' ha]
    exact List.take_left' hb

/-! ### Log rows (R91) -/

/-- A fraction reads back from its code. -/
theorem fraction_ofCode (f : Fraction) : Fraction.ofCode f.code = some f ∧ f.code ≤ 4 := by
  cases f <;> decide

/-- The numbers of a record's body lie in the fields of its area; an overflow deposit has no record (R98, 12.3). -/
def RecordBody.Fits : RecordBody → Prop
  | .deposit _ charge _ _ _ => charge ≤ 255
  | .dayClose total count overflow => total ≤ 16777215 ∧ count ≤ 65535 ∧ overflow ≤ 65535
  | .overflowSummary count charge lost => count ≤ 65535 ∧ charge ≤ 16777215 ∧ lost ≤ 65535
  | .forced | .emptying _ | .unannouncedEmpty | .restart _ => True
  | .overflowDeposit => False

theorem RecordBody.code_lt (body : RecordBody) : body.code < 8 := by
  cases body <;> simp [RecordBody.code]

theorem RecordBody.length_area (body : RecordBody) : body.area.length = 7 := by
  cases body <;> simp [RecordBody.area]

/-- The flags of a DEPOSIT read back (12.3). -/
theorem depositFlags (unchecked redirected service : Bool) :
    let flags := (BitVec.ofNat 8 (bit unchecked 0 + bit redirected 1 + bit service 2)).toNat
    decide (flags % 2 = 1) = unchecked ∧ decide (flags / 2 % 2 = 1) = redirected ∧ decide (flags / 4 % 2 = 1) = service := by
  cases unchecked <;> cases redirected <;> cases service <;> decide

/-- A body reads back from its code and its area. -/
theorem readBody_area {body : RecordBody} (h : body.Fits) : readBody body.code body.area = some body := by
  cases body with
  | deposit card charge unchecked redirected service =>
    have hcard : field (RecordBody.deposit card charge unchecked redirected service).area 0 4 = card.toNat :=
      field_bytesOf card.isLt
    have hcharge : field (RecordBody.deposit card charge unchecked redirected service).area 4 1 = charge := by
      rw [RecordBody.area, field_bytesOf_append (Nat.le_refl 4), Nat.sub_self, field_byte, BitVec.toNat_ofNat]
      exact Nat.mod_eq_of_lt (Nat.lt_succ_of_le h)
    obtain ⟨hunchecked, hredirected, hservice⟩ := depositFlags unchecked redirected service
    have hflags : field (RecordBody.deposit card charge unchecked redirected service).area 5 1 =
        (BitVec.ofNat 8 (bit unchecked 0 + bit redirected 1 + bit service 2)).toNat := field_bytesOf_append (by decide)
    simp only [RecordBody.code, readBody, hcard, hcharge, hflags, hunchecked, hredirected, hservice, BitVec.ofNat_toNat,
      BitVec.setWidth_eq]
  | emptying card =>
    have hcard : field (RecordBody.emptying card).area 0 4 = card.toNat := field_bytesOf card.isLt
    simp [RecordBody.code, readBody, hcard]
  | dayClose total count overflow =>
    obtain ⟨htotal, hcount, hoverflow⟩ := h
    simp only [RecordBody.code, readBody, RecordBody.area, List.append_assoc, field_bytesOf_append, Nat.reduceLeDiff,
      Nat.reduceSub, field_triple htotal, Nat.le_refl, Nat.sub_self,
      field_word hcount,
      field_word_last hoverflow]
  | overflowSummary count charge lost =>
    obtain ⟨hcount, hcharge, hlost⟩ := h
    simp only [RecordBody.code, readBody, RecordBody.area, List.append_assoc, field_bytesOf_append, Nat.reduceLeDiff,
      Nat.reduceSub, field_word hcount, Nat.le_refl, Nat.sub_self,
      field_triple hcharge,
      field_word_last hlost]
  | restart cause =>
    have hcause : field (RecordBody.restart cause).area 0 1 = cause.toNat := rfl
    simp [RecordBody.code, readBody, hcause]
  | forced => rfl
  | unannouncedEmpty => rfl
  | overflowDeposit => exact absurd h id

theorem length_logRow (r : LogRecord) : (logRow r).length = 16 := by
  simp [logRow, length_withRowCheck, LogEntry.bytes, RecordBody.length_area]

/-- The words of a log row, and the kind-specific area behind them (12.3). -/
theorem logRow_fields (r : LogRecord) (hday : r.entry.day ≤ 65535) (htime : ∀ t, r.entry.time = some t → t ≤ 43199)
    (hfill : r.entry.fill.getD 1023 ≤ 1023) :
    field (logRow r) 0 2 = r.seq.toNat / 1024 + bit r.confirmed 14 ∧
      field (logRow r) 2 2 = r.entry.fill.getD 1023 + 1024 * r.entry.body.code + 8192 * r.entry.fraction.code ∧
      field (logRow r) 4 2 = r.entry.day ∧ field (logRow r) 6 2 = r.entry.time.getD 65535 ∧
      ((logRow r).drop 8).take 7 = r.entry.body.area := by
  have hseq : r.seq.toNat < 16777216 := r.seq.isLt
  have hhead : r.seq.toNat / 1024 + bit r.confirmed 14 ≤ 65535 := by
    have hbit : bit r.confirmed 14 ≤ 16384 := by cases r.confirmed <;> decide
    omega
  have hcode := r.entry.body.code_lt
  have hfraction := (fraction_ofCode r.entry.fraction).2
  have hmid : r.entry.fill.getD 1023 + 1024 * r.entry.body.code + 8192 * r.entry.fraction.code ≤ 65535 := by omega
  have htime : r.entry.time.getD 65535 ≤ 65535 := by
    cases h : r.entry.time with
    | none => exact Nat.le_refl _
    | some t => exact (htime t h).trans (by decide)
  simp only [logRow, withRowCheck, LogEntry.bytes, List.append_assoc, field_bytesOf_append, Nat.reduceLeDiff, Nat.reduceSub,
    Nat.le_refl, Nat.sub_self, field_word hhead, field_word hmid, field_word hday, field_word htime, true_and]
  have harea := r.entry.body.length_area
  rw [← List.append_assoc, ← List.append_assoc, ← List.append_assoc, List.drop_left' (by simp)]
  exact List.take_left' harea

/-- A fill value of a record reads back from its code (12.3). -/
theorem fill_code {fill : Option Nat} (h : ∀ f, fill = some f → f ≤ 1000) :
    fill.getD 1023 ≤ 1023 ∧ ¬ (1000 < fill.getD 1023 ∧ fill.getD 1023 < 1023) ∧
      (if fill.getD 1023 = 1023 then none else some (fill.getD 1023)) = fill := by
  cases fill with
  | none => decide
  | some f =>
    have hf := h f rfl
    rw [Option.getD_some, if_neg (by omega)]
    exact ⟨by omega, by omega, rfl⟩

/-- A time of day reads back from its code (12.3). -/
theorem time_code {time : Option Nat} (h : ∀ t, time = some t → t ≤ 43199) :
    (if time.getD 65535 = 65535 then none else some (time.getD 65535)) = time := by
  cases time with
  | none => rfl
  | some t =>
    have ht := h t rfl
    rw [Option.getD_some, if_neg (by omega)]

/-- The first word of a log row gives the sequence number and the CONFIRMED marker (12.3). -/
theorem logRow_head {seq : Sequence} {confirmed : Bool} {head : Nat} (h : head = seq.toNat / 1024 + bit confirmed 14) :
    BitVec.ofNat 24 (head % 16384 * 1024 + seq.toNat % 1024) = seq ∧ decide (head / 16384 % 2 = 1) = confirmed := by
  have hseq : seq.toNat < 16777216 := seq.isLt
  have hmarker : head % 16384 = seq.toNat / 1024 ∧ decide (head / 16384 % 2 = 1) = confirmed := by
    cases confirmed with
    | false =>
      replace h : head = seq.toNat / 1024 := h
      exact ⟨by omega, decide_eq_false (by omega)⟩
    | true =>
      replace h : head = seq.toNat / 1024 + 16384 := h
      exact ⟨by omega, decide_eq_true (by omega)⟩
  refine ⟨?_, hmarker.2⟩
  rw [hmarker.1, Nat.div_add_mod', BitVec.ofNat_toNat, BitVec.setWidth_eq]

/-- A log row reads back its record. -/
theorem readLogRow_logRow {r : LogRecord} (hbody : r.entry.body.Fits) (hday : r.entry.day ≤ 65535)
    (htime : ∀ t, r.entry.time = some t → t ≤ 43199) (hfill : ∀ f, r.entry.fill = some f → f ≤ 1000) :
    readLogRow (r.seq.toNat % 1024) (logRow r) = some r := by
  have hcode := r.entry.body.code_lt
  have hfraction := (fraction_ofCode r.entry.fraction).1
  obtain ⟨hfillLe, hfillRange, hfillBack⟩ := fill_code hfill
  obtain ⟨hhead, hmid, hdayField, htimeField, harea⟩ := logRow_fields r hday htime hfillLe
  obtain ⟨hseq, hconfirmed⟩ := logRow_head hhead
  have hmidFill : field (logRow r) 2 2 % 1024 = r.entry.fill.getD 1023 := by omega
  have hmidCode : field (logRow r) 2 2 / 1024 % 8 = r.entry.body.code := by omega
  have hmidFraction : field (logRow r) 2 2 / 8192 = r.entry.fraction.code := by omega
  simp only [readLogRow, hmidFill, hmidCode, hmidFraction, harea, readBody_area hbody, hfraction, hfillRange, hdayField,
    htimeField, if_false, hseq, hconfirmed, hfillBack, time_code htime]

/-! ### Accounting rows (R92) -/

theorem accountingRow_reads {a : Accounting} (b : Accounting) (hday : a.day ≤ 65535) (htotal : a.total ≤ 16777215)
    (hcount : a.count ≤ 65535) (hoverflow : a.overflowCount ≤ 65535) (hcharge : a.overflowCharge ≤ 16777215) :
    readAccountingRow (accountingRow a) b = { a with
      hatchCycles := b.hatchCycles, pressCycles := b.pressCycles, rebuilt := b.rebuilt } := by
  have hnext : a.next.toNat ≤ 16777215 := Nat.le_of_lt_succ a.next.isLt
  simp only [readAccountingRow, accountingRow, withRowCheck, List.append_assoc, field_bytesOf_append, Nat.reduceLeDiff,
    Nat.reduceSub, Nat.le_refl, Nat.sub_self, field_word hday, field_triple htotal, field_word hcount, field_word hoverflow,
    field_triple hcharge, field_triple hnext, BitVec.ofNat_toNat, BitVec.setWidth_eq]

theorem lifetimeRow_reads {a : Accounting} (b : Accounting) (hhatch : a.hatchCycles ≤ 16777215)
    (hpress : a.pressCycles ≤ 65535) :
    readLifetimeRow (lifetimeRow a) b = { b with
      hatchCycles := a.hatchCycles, pressCycles := a.pressCycles, rebuilt := a.rebuilt } := by
  have hrebuilt : decide ((BitVec.ofNat 8 (bit a.rebuilt 0)).toNat % 2 = 1) = a.rebuilt := by
    cases a.rebuilt <;> decide
  simp only [readLifetimeRow, lifetimeRow, withRowCheck, List.append_assoc, field_bytesOf_append, Nat.reduceLeDiff,
    Nat.reduceSub, Nat.le_refl, Nat.sub_self, field_triple hhatch, field_word hpress, List.cons_append, field_byte, hrebuilt]

end Sys2Proof.Machine

/-- Settles O44: each row is written and read field by field. -/
theorem storedRowsReadBack : Obligations.StoredRowsReadBack := by
  refine ⟨fun content => rowCheckPasses_withRowCheck, fun r q => ?cards, fun a b => ?revocations,
    fun seq body day time fill fraction confirmed hbody hday htime hfill => ?log,
    fun a b hday htotal hcount hoverflow hcharge hhatch hpress => ?accounting⟩
  case cards =>
    obtain ⟨hlength, hfirst, hsecond⟩ := cardRow_slots (some r) (some q)
    rw [hfirst, hsecond, (cardRow_slots none (some q)).2.1, (cardRow_slots (some r) none).2.2]
    exact ⟨hlength, readSlot_slotContent r, readSlot_slotContent q, readSlot_free, readSlot_free⟩
  case revocations =>
    obtain ⟨hlength, hfirst, hsecond⟩ := revocationRow_positions a b
    rw [hfirst, hsecond]
    exact ⟨hlength, readPosition_positionBytes a, readPosition_positionBytes b⟩
  case log =>
    have hfits : body.Fits := by cases body <;> exact hbody
    exact ⟨length_logRow _, readLogRow_logRow (r := ⟨seq, ⟨body, day, time, fraction, fill⟩, confirmed⟩) hfits hday htime hfill⟩
  case accounting =>
    refine ⟨by simp [accountingRow, length_withRowCheck], by simp [lifetimeRow, length_withRowCheck], ?_⟩
    rw [accountingRow_reads _ hday htotal hcount hoverflow hcharge, lifetimeRow_reads b hhatch hpress]
end

section
/-! The evaluation of a card from step 2 on (R51 to R60): the outcome of the first step whose condition holds, what a crew card
gets, and what the evaluation leaves as it is. -/

open Sys2Proof Sys2Proof.Machine

namespace Sys2Proof.Machine

/-! ### The release window and the panel (R57 to R59, R66) -/

/-- The indication of a window (R66). -/
def Hatch.windowIndication (h : Hatch) : Indication :=
  match h.acceptance with
  | some a => if a.cls = .crew then .crew else .accept
  | none => .accept

theorem Hatch.openWindow_eq (h : Hatch) (now : Moment) : h.openWindow now = { h with
    phase := .window, window := some (now + 10000000), deferred := none, lock := .pullIn (now + 300000)
    panel := some ⟨h.windowIndication, none⟩, buzzer := h.windowIndication.buzzer now } := by
  unfold Hatch.openWindow Hatch.showStanding Hatch.standing Hatch.windowIndication
  cases h.acceptance <;> rfl

/-- Of the hatch controller the station state, the card that waits, the first sounding's mark and the service period are as
before. -/
structure Hatch.SameStation (h g : Hatch) : Prop where
  station       : g.station = h.station
  evaluating    : g.evaluating = h.evaluating
  firstSounding : g.firstSounding = h.firstSounding
  service       : g.service = h.service

theorem Hatch.sameStation_show (h : Hatch) (now : Moment) (i : Indication) : h.SameStation (h.show now i) :=
  ⟨rfl, rfl, rfl, rfl⟩

theorem Hatch.sameStation_endRelease (h : Hatch) : h.SameStation h.endRelease := by
  obtain ⟨p, b, hend⟩ := h.endRelease_spec
  rw [hend]
  exact ⟨rfl, rfl, rfl, rfl⟩

theorem Hatch.sameStation_openWindow (h : Hatch) (now : Moment) : h.SameStation (h.openWindow now) := by
  rw [h.openWindow_eq]
  exact ⟨rfl, rfl, rfl, rfl⟩

theorem Hatch.sameStation_showStanding (h : Hatch) (now : Moment) : h.SameStation (h.showStanding now) := by
  unfold Hatch.showStanding
  split <;> exact ⟨rfl, rfl, rfl, rfl⟩

theorem Hatch.SameStation.trans {h g k : Hatch} (hg : h.SameStation g) (hk : g.SameStation k) : h.SameStation k :=
  ⟨hk.station.trans hg.station, hk.evaluating.trans hg.evaluating, hk.firstSounding.trans hg.firstSounding,
    hk.service.trans hg.service⟩

/-! ### What the evaluation leaves as it is -/

/-- The evaluation of a card that is no crew card: the hatch controller's release and panel change, and telegrams may be
offered. -/
def Node.JudgedAside (n m : Node) : Prop :=
  ∃ g, n.hatch.SameStation g ∧ (n.withHatch g).SameButOffers m ∧ m.line.polarity = n.line.polarity

theorem Node.judgedAside_withHatch (n : Node) {g : Hatch} (h : n.hatch.SameStation g) : n.JudgedAside (n.withHatch g) :=
  ⟨g, h, .refl _, rfl⟩

theorem Node.judgedAside_refuseEarly (n : Node) (card : CardNumber) (code : Nat) : n.JudgedAside (n.refuseEarly card code) := by
  unfold Node.refuseEarly
  split
  · exact n.judgedAside_withHatch (n.hatch.sameStation_endRelease.trans (Hatch.sameStation_show _ _ _))
  · exact n.judgedAside_withHatch (n.hatch.sameStation_show _ _)

theorem Node.judgedAside_refuse (n : Node) (code : Nat) : n.JudgedAside (n.refuse code) :=
  n.judgedAside_withHatch (n.hatch.sameStation_show _ _)

theorem Node.judgedAside_presentAgain (n : Node) : n.JudgedAside n.presentAgain := by
  unfold Node.presentAgain
  split
  · exact n.judgedAside_withHatch (n.hatch.sameStation_openWindow _)
  · exact n.judgedAside_withHatch (n.hatch.sameStation_showStanding _)

theorem Node.judgedAside_redirectCard (n : Node) (card : CardNumber) : n.JudgedAside (n.redirectCard card) := by
  unfold Node.redirectCard
  split
  next v _ =>
    exact ⟨_, n.hatch.sameStation_show _ (.redirect v.island), Node.sameButOffers_offerOnly _ _ _, Node.offer_polarity _ _ _⟩
  · exact n.judgedAside_refuse _

theorem Node.judgedAside_acceptCard (n : Node) (a : Acceptance) : n.JudgedAside (n.acceptCard a) := by
  unfold Node.acceptCard
  split
  · exact n.judgedAside_withHatch
      (Hatch.SameStation.trans (g := { n.hatch with acceptance := some a }) ⟨rfl, rfl, rfl, rfl⟩
        (Hatch.sameStation_openWindow _ _))
  · exact n.judgedAside_withHatch ⟨rfl, rfl, rfl, rfl⟩

theorem Node.judgedAside_judgeDeposit (n : Node) (r : CardRecord) : n.JudgedAside (n.judgeDeposit r) := by
  unfold Node.judgeDeposit
  dsimp only
  split
  · exact n.judgedAside_refuse 30
  · split
    · exact n.judgedAside_redirectCard r.number
    · split
      · exact n.judgedAside_refuse 15
      · exact n.judgedAside_acceptCard _

/-- The card is a crew card that steps 2 to 4 let pass (R60). -/
def Cards.IsCrew (c : Cards) (card : CardNumber) : Prop :=
  c.isRevoked card = false ∧ ∃ r, c.lookup card = some r ∧ r.status = .valid ∧ r.cls = .crew

theorem Node.judgedAside_judgeCard {n : Node} {card : CardNumber} (h : ¬ n.cards.IsCrew card) :
    n.JudgedAside (n.judgeCard card) := by
  unfold Node.judgeCard
  split
  · exact n.judgedAside_refuseEarly card 11
  next hrevoked =>
    split
    · exact n.judgedAside_refuseEarly card 12
    next r hr =>
      split
      · exact n.judgedAside_refuseEarly card 13
      next hstatus =>
        split
        next hcls =>
          have hvalid : r.status = .valid := by cases hs : r.status <;> simp_all
          exact absurd ⟨Bool.eq_false_iff.mpr hrevoked, r, hr, hvalid, hcls⟩ h
        · split
          · exact n.judgedAside_refuseEarly card 90
          · split
            · exact n.judgedAside_refuseEarly card 14
            · split
              · exact n.judgedAside_presentAgain
              · exact n.judgedAside_judgeDeposit r

/-! ### The outcome of the first step whose condition holds (R51 to R55) -/

theorem Node.hatchBusy_iff (n : Node) : n.hatchBusy = true ↔
    n.hatch.phase ≠ .idle ∨ n.hatch.hatch ≠ .closed ∨ n.hatch.lift ≠ .seated ∨ n.holdingOccupied = true := by
  simp [Node.hatchBusy, Node.hatchQuiet, Node.hatchClosed, Node.liftSeated]
  tauto

theorem allowanceSpent_iff (allowance : Nat) (known : Option Nat) : allowanceSpent allowance known = true ↔
    ∃ k, known = some k ∧ allowance ≠ 15 ∧ allowance ≤ k := by
  cases known <;> simp [allowanceSpent]

theorem Node.scheduledToday_iff (n : Node) : n.scheduledToday = true ↔
    n.call.state = .scheduled ∧ n.call.round.map (·.1) = some n.clock.day := by
  unfold Node.scheduledToday
  cases n.call.round <;> simp

/-- FULL: the card is sent to the redirect target's island (R53). -/
theorem Node.redirectCard_panel_of_some {n : Node} {v : View} (h : n.redirectTarget = some v) (card : CardNumber) :
    (n.redirectCard card).hatch.panel = some ⟨.redirect v.island, some (n.now + 4000000)⟩ := by
  have hredirect : n.redirectCard card =
      (n.withHatch (n.hatch.show n.now (.redirect v.island))).offerRedirect card v := by
    simp [Node.redirectCard, h]
  have hsame : (n.withHatch (n.hatch.show n.now (.redirect v.island))).SameButOffers (n.redirectCard card) :=
    hredirect ▸ Node.sameButOffers_offerOnly _ _ _
  exact congrArg Hatch.panel hsame.hatch

/-- FULL with no redirect target: the card is refused (R53). -/
theorem Node.redirectCard_panel_of_none {n : Node} (h : n.redirectTarget = none) (card : CardNumber) :
    (n.redirectCard card).hatch.panel = some ⟨.refusal (if n.call.state = .scheduled ∧
      n.call.round.map (·.1) = some n.clock.day then 21 else 20), some (n.now + 4000000)⟩ := by
  simp only [Node.redirectCard, h, ← n.scheduledToday_iff]
  rfl

/-- The card is accepted with `a` (R55): a window with the press at home (R57), else a deferred release (R59). -/
def Node.Accepts (n m : Node) (a : Acceptance) : Prop :=
  m.hatch.acceptance = some a ∧
    if n.pressHome = true then
      m.hatch.phase = .window ∧ m.hatch.window = some (n.now + 10000000) ∧ m.hatch.lock = .pullIn (n.now + 300000) ∧
        m.hatch.panel = some ⟨.accept, none⟩
    else
      m.hatch.phase = .deferred ∧ m.hatch.deferred = some (n.now + 20000000) ∧ m.hatch.lock = n.hatch.lock ∧
        m.hatch.panel = some ⟨.deferred, none⟩

theorem Node.acceptCard_accepts (n : Node) {a : Acceptance} (h : a.cls ≠ .crew) : n.Accepts (n.acceptCard a) a := by
  unfold Node.Accepts Node.acceptCard
  split
  · rw [Hatch.openWindow_eq]
    simp [Hatch.windowIndication, h]
  · exact ⟨rfl, rfl, rfl, rfl, rfl⟩

section
variable {n : Node} {r : CardRecord}

theorem Node.judgeDeposit_of_busy (h : n.hatchBusy = true) : n.judgeDeposit r = n.refuse 30 := if_pos h

theorem Node.judgeDeposit_of_full (hb : n.hatchBusy = false) (h : n.sounding.full = true) :
    n.judgeDeposit r = n.redirectCard r.number := by
  simp [Node.judgeDeposit, hb, h]

theorem Node.judgeDeposit_of_spent (hb : n.hatchBusy = false) (hf : n.sounding.full = false)
    (h : allowanceSpent r.allowance.toNat (n.tallyInUse.knownCount r.number) = true) : n.judgeDeposit r = n.refuse 15 := by
  simp [Node.judgeDeposit, hb, hf, h]

theorem Node.judgeDeposit_of_accepted (hb : n.hatchBusy = false) (hf : n.sounding.full = false)
    (h : allowanceSpent r.allowance.toNat (n.tallyInUse.knownCount r.number) = false) : n.judgeDeposit r =
      n.acceptCard ⟨r.number, r.cls, some r.band, (n.tallyInUse.knownCount r.number).isNone, n.now⟩ := by
  simp [Node.judgeDeposit, hb, hf, h]

/-- Steps 8 to 12 of card evaluation (R51 to R55), of a card that is no crew card. -/
theorem Node.judgeDeposit_judged (n : Node) (hcls : r.cls ≠ .crew) {m : Node} (hm : n.judgeDeposit r = m) :
    if n.hatchBusy = true then m.hatch.panel = some ⟨.refusal 30, some (n.now + 4000000)⟩
    else if n.sounding.full = true then
      match n.redirectTarget with
      | some v => m.hatch.panel = some ⟨.redirect v.island, some (n.now + 4000000)⟩
      | none => m.hatch.panel = some ⟨.refusal (if n.call.state = .scheduled ∧
          n.call.round.map (·.1) = some n.clock.day then 21 else 20), some (n.now + 4000000)⟩
    else if allowanceSpent r.allowance.toNat (n.tallyInUse.knownCount r.number) = true then
      m.hatch.panel = some ⟨.refusal 15, some (n.now + 4000000)⟩
    else
      n.Accepts m ⟨r.number, r.cls, some r.band, (n.tallyInUse.knownCount r.number).isNone, n.now⟩ := by
  split
  next hbusy => exact hm ▸ n.judgeDeposit_of_busy hbusy ▸ rfl
  next hbusy =>
    replace hbusy := Bool.eq_false_iff.mpr hbusy
    split
    next hfull =>
      rw [Node.judgeDeposit_of_full hbusy hfull] at hm
      split
      next v hv => exact hm ▸ Node.redirectCard_panel_of_some hv _
      next hnone => exact hm ▸ Node.redirectCard_panel_of_none hnone _
    next hfull =>
      replace hfull := Bool.eq_false_iff.mpr hfull
      split
      next hspent => exact hm ▸ Node.judgeDeposit_of_spent hbusy hfull hspent ▸ rfl
      next hspent =>
        rw [Node.judgeDeposit_of_accepted hbusy hfull (Bool.eq_false_iff.mpr hspent)] at hm
        exact hm ▸ Node.acceptCard_accepts n hcls

end

/-- Steps 2 to 12 of card evaluation (R51). -/
theorem Node.judgeCard_judged (n : Node) (card : CardNumber) :
    Node.JudgedFromStep2 n (n.judgeCard card) n.cards n.now card := by
  unfold Node.JudgedFromStep2
  generalize hm : n.judgeCard card = m
  unfold Node.judgeCard at hm
  dsimp only
  by_cases hrevoked : n.cards.isRevoked card = true
  · rw [if_pos hrevoked]
    exact hm ▸ if_pos hrevoked ▸ rfl
  rw [if_neg hrevoked] at hm ⊢
  cases hr : n.cards.lookup card with
  | none =>
    rw [hr] at hm
    exact hm ▸ rfl
  | some r =>
    simp only [hr] at hm ⊢
    by_cases hstatus : r.status = .suspended
    · rw [if_pos hstatus] at hm ⊢
      exact hm ▸ rfl
    rw [if_neg hstatus] at hm ⊢
    by_cases hcls : r.cls = .crew
    · rw [if_pos hcls]
      trivial
    rw [if_neg hcls] at hm ⊢
    by_cases hstation : n.hatch.station = .safe ∨ n.hatch.station = .outOfService
    · rw [if_pos hstation] at hm ⊢
      exact hm ▸ rfl
    rw [if_neg hstation] at hm ⊢
    by_cases hrights : r.rights.getLsbD n.control.settings.fraction.code = false
    · rw [if_pos hrights] at hm ⊢
      exact hm ▸ rfl
    rw [if_neg hrights] at hm ⊢
    by_cases hown : n.hatch.ownPending card = true
    · rw [if_pos hown]
      trivial
    rw [if_neg hown] at hm ⊢
    exact (if_congr n.hatchBusy_iff rfl (if_congr Iff.rfl rfl (if_congr (allowanceSpent_iff _ _) rfl rfl))).mp
      (n.judgeDeposit_judged hcls hm)

/-! ### What every evaluation leaves as it is -/

/-- The card table, the store, the tally table, the clock, the fill value and the deposit log are as before, but for the answer
to a harvest. -/
structure Node.KeepsRecords (n m : Node) : Prop where
  cards  : m.cards = n.cards
  store  : m.store = n.store
  tally  : m.tally = n.tally
  clock  : m.clock = n.clock
  fill   : m.sounding.fill = n.sounding.fill
  logBut : { m.log with harvest := n.log.harvest } = n.log

theorem Node.SameButTalk.keepsRecords {n m : Node} (h : n.SameButTalk m) : n.KeepsRecords m :=
  ⟨h.cards, h.store, h.tally, h.clock, congrArg Sounding.fill h.sounding, h.logBut⟩

theorem Node.SameButOffers.keepsRecords {n m : Node} (h : n.SameButOffers m) : n.KeepsRecords m :=
  ⟨h.cards, h.store, h.tally, h.clock, congrArg Sounding.fill h.sounding, h.logBut⟩

theorem Node.KeepsRecords.trans {a b c : Node} (h : a.KeepsRecords b) (k : b.KeepsRecords c) : a.KeepsRecords c where
  cards := k.cards.trans h.cards
  store := k.store.trans h.store
  tally := k.tally.trans h.tally
  clock := k.clock.trans h.clock
  fill := k.fill.trans h.fill
  logBut := (congrArg (fun l : Log => { l with harvest := a.log.harvest }) k.logBut :).trans h.logBut

theorem Node.keepsRecords_withHatch (n : Node) (g : Hatch) : n.KeepsRecords (n.withHatch g) :=
  ⟨rfl, rfl, rfl, rfl, rfl, rfl⟩

/-- The held records, the accounting content and the append list are those before. -/
theorem Node.KeepsRecords.log {n m : Node} (h : n.KeepsRecords m) :
    m.log.held = n.log.held ∧ m.log.accounting = n.log.accounting ∧ m.log.appendList = n.log.appendList :=
  ⟨(congrArg Log.held h.logBut :), (congrArg Log.accounting h.logBut :), (congrArg Log.appendList h.logBut :)⟩

theorem Node.JudgedAside.keepsRecords {n m : Node} (h : n.JudgedAside m) : n.KeepsRecords m := by
  obtain ⟨g, -, hsame, -⟩ := h
  exact (n.keepsRecords_withHatch g).trans hsame.keepsRecords

/-! ### A crew card (R46, R47, R60) -/

/-- The hatch controller once a crew card has its service period (R47). -/
def Hatch.serving (h : Hatch) (now : Moment) (card : CardNumber) : Hatch :=
  { h with
    service := some ⟨now + serviceLength, card⟩
    station := if h.station = .ready then .service else h.station }

/-- The service period begins; a station in READY goes to SERVICE (R47). -/
theorem Node.beginService_talk (n : Node) (card : CardNumber) :
    (n.withHatch (n.hatch.serving n.now card)).SameButTalk (n.beginService card) := by
  by_cases hready : n.hatch.station = .ready
  · have hbegun : n.beginService card = (n.withHatch (n.hatch.serving n.now card)).noticeStation := by
      simp [Node.beginService, Node.setStation, Hatch.serving, hready]
      rfl
    rw [hbegun]
    exact Node.noticeStation_talk _
  · have hbegun : n.beginService card = (n.withHatch (n.hatch.serving n.now card)).noticeCheck := by
      simp [Node.beginService, Hatch.serving, hready]
    rw [hbegun]
    exact Node.noticeCheck_talk _

theorem Node.crewBusy_iff (n : Node) (card : CardNumber) : n.crewBusy card = true ↔
    n.hatch.hatch ≠ .closed ∨ n.hatch.lift ≠ .seated ∨ n.hatch.phase = .deposit ∨ n.hatch.phase = .crewOpening ∨
      n.hatch.phase = .forcedOpening ∨
      ((n.hatch.phase = .window ∨ n.hatch.phase = .deferred) ∧ n.hatch.ownPending card = false) := by
  simp [Node.crewBusy, Node.hatchClosed, Node.liftSeated]
  tauto

/-- The own acceptance is pending for `card` alone (R56). -/
theorem Hatch.card_of_ownPending {h : Hatch} {card : CardNumber} (hown : h.ownPending card = true) :
    h.acceptance.map (·.card) = some card := by
  unfold Hatch.ownPending at hown
  cases ha : h.acceptance with
  | none => simp [ha] at hown
  | some a => simp_all

/-- The crew window (R60). -/
theorem Node.crewWindow_given (n : Node) (card : CardNumber) :
    Node.CrewWindowGiven n (n.crewWindow card) n.now card ∧
      ∃ g, n.hatch.SameStation g ∧ n.crewWindow card = n.withHatch g := by
  unfold Node.CrewWindowGiven
  generalize hm : n.crewWindow card = m
  unfold Node.crewWindow at hm
  dsimp only
  by_cases hhome : n.pressHome = false
  · rw [if_pos hhome] at hm ⊢
    subst hm
    exact ⟨⟨rfl, rfl, rfl, rfl, rfl, rfl⟩, _, n.hatch.sameStation_show _ _, rfl⟩
  rw [if_neg hhome] at hm ⊢
  by_cases hbusy : n.crewBusy card = true
  · rw [if_pos hbusy] at hm
    rw [if_pos ((n.crewBusy_iff card).mp hbusy)]
    subst hm
    exact ⟨⟨rfl, rfl⟩, _, n.hatch.sameStation_show _ _, rfl⟩
  rw [if_neg hbusy] at hm
  have hfree := mt (n.crewBusy_iff card).mpr hbusy
  rw [if_neg hfree]
  by_cases hwindow : n.hatch.phase = .window
  · rw [if_pos hwindow] at hm
    subst hm
    have hown : n.hatch.acceptance.map (·.card) = some card := by
      refine Hatch.card_of_ownPending ?_
      by_contra hnot
      exact hfree (.inr (.inr (.inr (.inr (.inr ⟨.inl hwindow, Bool.eq_false_iff.mpr hnot⟩)))))
    refine ⟨?_, _, n.hatch.sameStation_openWindow _, rfl⟩
    rw [Hatch.openWindow_eq]
    exact ⟨rfl, rfl, rfl, hown⟩
  · rw [if_neg hwindow] at hm
    subst hm
    refine ⟨?_, _, Hatch.SameStation.trans (g := { n.hatch with acceptance := some ⟨card, .crew, none, false, n.now⟩ })
      ⟨rfl, rfl, rfl, rfl⟩ (Hatch.sameStation_openWindow _ _), rfl⟩
    rw [Hatch.openWindow_eq]
    exact ⟨rfl, rfl, rfl, rfl⟩

theorem Sounding.abandonedAt_fill (u : Sounding) (now : Moment) : (u.abandonedAt now).fill = u.fill := by
  unfold Sounding.abandonedAt
  split <;> rfl

/-- The press unit's recovery leaves the hatch controller and the records (R126). -/
theorem Node.startRecovery_keeps (n : Node) : n.startRecovery.hatch = n.hatch ∧ n.KeepsRecords n.startRecovery := by
  unfold Node.startRecovery
  split
  · dsimp only
    rw [Node.abandonSounding_eq]
    generalize (if n.press.homeSwitch = .active then
      { n.press.startReverse n.now .recovery with drive := none, lastDirection := n.press.lastDirection }
      else n.press.startReverse n.now .recovery) = p
    have told := ((n.withPress p).withSounding (n.sounding.abandonedAt n.now)).noticeCheck_talk
    have hfill : n.KeepsRecords ((n.withPress p).withSounding (n.sounding.abandonedAt n.now)) :=
      ⟨rfl, rfl, rfl, rfl, n.sounding.abandonedAt_fill n.now, rfl⟩
    exact ⟨told.hatch, hfill.trans told.keepsRecords⟩
  · exact ⟨rfl, ⟨rfl, rfl, rfl, rfl, rfl, rfl⟩⟩

/-- What a crew card gets of the hatch controller: its service period, the station state with it, and the crew window. -/
structure Node.CrewServed (n m : Node) (card : CardNumber) : Prop where
  records    : n.KeepsRecords m
  evaluating : m.hatch.evaluating = n.hatch.evaluating
  service    : m.hatch.service = some ⟨n.now + 900000000, card⟩
  station    : m.hatch.station = if n.hatch.station = .ready then .service else n.hatch.station
  window     : Node.CrewWindowGiven n m n.now card

/-- The hatch controller's release and its panel are the same. -/
structure Hatch.SameRelease (h g : Hatch) : Prop where
  panel      : g.panel = h.panel
  phase      : g.phase = h.phase
  window     : g.window = h.window
  deferred   : g.deferred = h.deferred
  acceptance : g.acceptance = h.acceptance
  lock       : g.lock = h.lock

theorem Hatch.sameRelease_of_eq {h g : Hatch} (he : g = h) : h.SameRelease g :=
  he ▸ ⟨rfl, rfl, rfl, rfl, rfl, rfl⟩

section
variable {before after other : Node} {cards : Cards} {now : Moment} {card : CardNumber}

/-- The crew window given is in the hatch controller's release and panel. -/
theorem Node.CrewWindowGiven.congr (h : Node.CrewWindowGiven before after now card)
    (same : after.hatch.SameRelease other.hatch) : Node.CrewWindowGiven before other now card := by
  unfold Node.CrewWindowGiven
  rw [same.panel, same.phase, same.window, same.deferred, same.acceptance, same.lock]
  exact h

/-- The outcome of the evaluation is in the hatch controller's release and panel. -/
theorem Node.JudgedFromStep2.congr (h : Node.JudgedFromStep2 before after cards now card)
    (same : after.hatch.SameRelease other.hatch) : Node.JudgedFromStep2 before other cards now card := by
  unfold Node.JudgedFromStep2
  rw [same.panel, same.phase, same.window, same.deferred, same.acceptance, same.lock]
  exact h

end

theorem Node.serviceHandling_served (n : Node) (card : CardNumber) : n.CrewServed (n.serviceHandling card) card := by
  have talk := n.beginService_talk card
  generalize hb : n.beginService card = b at talk
  obtain ⟨given, g, aside, hwindow⟩ := b.crewWindow_given card
  have hhandled : n.serviceHandling card =
      if (b.crewWindow card).hatch.station = .outOfService then (b.crewWindow card).startRecovery else b.crewWindow card := by
    rw [Node.serviceHandling, hb]
  have hkeeps : (n.serviceHandling card).hatch = (b.crewWindow card).hatch ∧
      (b.crewWindow card).KeepsRecords (n.serviceHandling card) := by
    rw [hhandled]
    split
    · exact Node.startRecovery_keeps _
    · exact ⟨rfl, ⟨rfl, rfl, rfl, rfl, rfl, rfl⟩⟩
  obtain ⟨hhatch, records⟩ := hkeeps
  have hbegun : b.hatch = n.hatch.serving n.now card := talk.hatch
  have hnow : b.now = n.now := talk.now
  have hhome : b.pressHome = n.pressHome := by
    simp only [Node.pressHome, talk.settings, talk.press]
    rfl
  have window : Node.CrewWindowGiven n (b.crewWindow card) n.now card := by
    unfold Node.CrewWindowGiven at given
    rw [hbegun, hnow, hhome] at given
    exact given
  rw [hwindow] at hhatch records window
  exact {
    records := ((n.keepsRecords_withHatch _).trans talk.keepsRecords).trans ((b.keepsRecords_withHatch g).trans records)
    evaluating := by rw [hhatch]; exact aside.evaluating.trans (congrArg Hatch.evaluating hbegun :)
    service := by rw [hhatch]; exact aside.service.trans (congrArg Hatch.service hbegun :)
    station := by rw [hhatch]; exact aside.station.trans (congrArg Hatch.station hbegun :)
    window := window.congr (Hatch.sameRelease_of_eq hhatch) }

theorem Node.judgeCard_of_crew {n : Node} {card : CardNumber} (h : n.cards.IsCrew card) :
    n.judgeCard card = n.serviceHandling card := by
  obtain ⟨hrevoked, r, hr, hstatus, hcls⟩ := h
  simp [Node.judgeCard, hrevoked, hr, hstatus, hcls]

end Sys2Proof.Machine
end

section
/-! O13: what the start scan leaves in the card table (R38, R40, R41), and the evaluation that waited for it (R28, R51). -/

open Sys2Proof Sys2Proof.Machine

namespace Sys2Proof.Machine

/-! ### What the table holds after the scan (R40, R41) -/

section
variable {st : Store} {c : Cards} {p : Nat} {r : CardRecord} {number : CardNumber}

theorem SlotRead.record_eq_some_iff {slot : SlotRead} : slot.record = some r ↔ slot = .occupied r := by
  cases slot <;> simp [SlotRead.record]

/-- A slot is read as holding a record when its row holds it there. -/
theorem Store.cardSlots_occupied_iff :
    (st.cardSlots (p / 2))[p % 2]? = some (.occupied r) ↔ (st.slotRead p).record = some r := by
  rw [st.cardSlots_getElem, Option.some.injEq, SlotRead.record_eq_some_iff]

/-- A number is held lower in its bucket when a lower slot of the bucket is read with it. -/
theorem Store.heldLower_slot_iff :
    HeldLower CardRecord.number (fun q => (st.slotRead q).record) (4 * (p / 4)) p r ↔
      ∃ q r', q < p ∧ q / 4 = p / 4 ∧ (st.slotRead q).record = some r' ∧ r'.number = r.number := by
  constructor
  · rintro ⟨q, r', hfirst, hlt, hread, hnumber⟩
    exact ⟨q, r', hlt, by omega, hread, hnumber⟩
  · rintro ⟨q, r', hlt, hbucket, hread, hnumber⟩
    exact ⟨q, r', by omega, hlt, hread, hnumber⟩

/-- A slot is occupied with what its row holds, unless a lower slot of the bucket holds the number (R40). -/
theorem Store.mem_scanCards_slots (hp : p < 2048) : (p, r) ∈ (st.scanCards c).slots ↔
    (st.cardSlots (p / 2))[p % 2]? = some (.occupied r) ∧ ∀ q r', q < p → q / 4 = p / 4 →
      (st.cardSlots (q / 2))[q % 2]? = some (.occupied r') → r'.number ≠ r.number := by
  simp only [(st.scanCards_slots c).2.1, Store.mem_scanTable, Store.heldLower_slot_iff, Store.cardSlots_occupied_iff]
  constructor
  · rintro ⟨-, hread, hnot⟩
    exact ⟨hread, fun q r' hlt hbucket hq hnumber => hnot ⟨q, r', hlt, hbucket, hq, hnumber⟩⟩
  · rintro ⟨hread, hlower⟩
    exact ⟨hp, hread, fun ⟨q, r', hlt, hbucket, hq, hnumber⟩ => hlower q r' hlt hbucket hq hnumber⟩

/-- Both slots of a card row that fails its check are taken as out of range (R40). -/
theorem Store.slotRead_of_failed (h : st.readRow .card (p / 2) = none) : st.slotRead p = .outOfRange := by
  have hslots : st.cardSlots (p / 2) = [.outOfRange, .outOfRange] := by simp [Store.cardSlots, h]
  rw [Store.slotRead, hslots]
  rcases Nat.mod_two_eq_zero_or_one p with hp | hp <;> rw [hp] <;> rfl

/-- A row that fails its check holds no record (R40). -/
theorem Store.valueAt_scanCards_slots (h : st.readRow .card (p / 2) = none) : valueAt p (st.scanCards c).slots = none := by
  refine valueAt_eq_none_iff.mpr fun q hq hplace => ?_
  rw [(st.scanCards_slots c).2.1] at hq
  have hread := (Store.mem_scanTable.mp hq).2.1
  rw [hplace, Store.slotRead_of_failed h] at hread
  cases hread

/-- A position is held when its row holds a number there, unless a lower position holds it (R41). -/
theorem Store.mem_scanCards_revoked (hp : p < 128) : (p, number) ∈ (st.scanCards c).revoked ↔
    (st.rowPositions (p / 2))[p % 2]? = some (some number) ∧
      ∀ q, q < p → ¬ (st.rowPositions (q / 2))[q % 2]? = some (some number) := by
  simp only [(st.scanCards_revoked c).1, mem_keepFirst, Store.rowPositions_getElem, Option.some.injEq]
  constructor
  · rintro ⟨-, hread, hnot⟩
    exact ⟨hread, fun q hlt hq => hnot ⟨q, number, Nat.zero_le q, hlt, hq, rfl⟩⟩
  · rintro ⟨hread, hlower⟩
    refine ⟨⟨Nat.zero_le p, by omega⟩, hread, ?_⟩
    rintro ⟨q, other, -, hlt, hq, rfl⟩
    exact hlower q hlt hq

/-- A row that fails its check holds no number (R41). -/
theorem Store.valueAt_scanCards_revoked (h : st.readRow .revocation (p / 2) = none) :
    valueAt p (st.scanCards c).revoked = none := by
  refine valueAt_eq_none_iff.mpr fun q hq hplace => ?_
  rw [(st.scanCards_revoked c).1] at hq
  have hread := (read_of_mem_keepFirst hq).2.2
  have hpositions : st.rowPositions (p / 2) = [none, none] := by simp [Store.rowPositions, h]
  rw [hplace, Store.positionRead, hpositions] at hread
  rcases Nat.mod_two_eq_zero_or_one p with hp | hp <;> rw [hp] at hread <;> cases hread

end

/-! ### TABLE REPAIRED (R40, R41) -/

section
variable {st : Store}

/-- A bucket is repaired when a slot of it is out of range, or read with a number that a lower one has. -/
theorem Store.bucketRepaired_iff {b : Nat} : st.bucketRepaired b = true ↔ ∃ p, p / 4 = b ∧
    (st.slotRead p = .outOfRange ∨ ∃ r, (st.slotRead p).record = some r ∧
      HeldLower CardRecord.number (fun q => (st.slotRead q).record) (4 * (p / 4)) p r) := by
  have hbusy : ∀ p x, (st.slotRead p).record = some x → (st.slotRead p).isOccupied = true := by
    intro p x h
    cases hread : st.slotRead p <;> simp_all [SlotRead.record, SlotRead.isOccupied]
  have hdropped : ∀ p, ((st.slotRead p).isOccupied = true ∧ ∀ x, (st.slotRead p).record = some x →
        HeldLower CardRecord.number (fun q => (st.slotRead q).record) (4 * b) p x) ↔
      (st.slotRead p = .outOfRange ∨ ∃ r, (st.slotRead p).record = some r ∧
        HeldLower CardRecord.number (fun q => (st.slotRead q).record) (4 * b) p r) := by
    intro p
    cases st.slotRead p <;> simp [SlotRead.record, SlotRead.isOccupied]
  have hlength := length_keepFirst_lt_iff (key := CardRecord.number) (first := 4 * b) (count := 4) hbusy
  rw [Store.bucketRepaired, decide_eq_true_iff, Store.scanBucket_eq, Store.bucketReads_eq, List.filter_map, List.length_map]
  refine hlength.trans ⟨?_, ?_⟩
  · rintro ⟨p, hfirst, hlt, hp⟩
    obtain rfl : p / 4 = b := by omega
    exact ⟨p, rfl, (hdropped p).mp hp⟩
  · rintro ⟨p, rfl, hp⟩
    exact ⟨p, by omega, by omega, (hdropped p).mpr hp⟩

/-- The revocation list is repaired when a row fails its check, or a position is read with a number that a lower one has. -/
theorem Store.revocationsRepaired_iff : st.revocationsRepaired = true ↔
    (∃ row, row < 64 ∧ st.readRow .revocation row = none) ∨
      ∃ p number, p < 128 ∧ st.positionRead p = some number ∧ HeldLower id st.positionRead 0 p number := by
  have hbusy : ∀ p x, st.positionRead p = some x → (st.positionRead p).isSome = true := fun p x h => by simp [h]
  have hlength := length_keepFirst_lt_iff (key := id) (first := 0) (count := 128) hbusy
  have hpositions : ((st.positions).filter Option.isSome).length =
      ((List.range' 0 128).filter (fun p => (st.positionRead p).isSome)).length := by
    rw [Store.positions_eq, List.filter_map, List.length_map]
    rfl
  rw [Store.revocationsRepaired, Bool.or_eq_true, decide_eq_true_iff, Store.scanRevocations_eq, hpositions, hlength]
  refine or_congr (by simp [revocationRows]) ?_
  constructor
  · rintro ⟨p, -, hlt, hsome, hlower⟩
    obtain ⟨number, hread⟩ := Option.isSome_iff_exists.mp hsome
    exact ⟨p, number, by omega, hread, hlower number hread⟩
  · rintro ⟨p, number, hlt, hread, hlower⟩
    refine ⟨p, Nat.zero_le p, by omega, hbusy p number hread, fun x hx => ?_⟩
    obtain rfl : number = x := Option.some.inj (hread.symm.trans hx)
    exact hlower

/-- TABLE REPAIRED is set when a row failed its check, a slot was out of range or a number was held twice. -/
theorem Store.scanCards_repaired_iff (c : Cards) : (st.scanCards c).repaired = true ↔
    (∃ row, row < 1024 ∧ st.readRow .card row = none) ∨ (∃ row, row < 64 ∧ st.readRow .revocation row = none) ∨
    (∃ p, p < 2048 ∧ (st.cardSlots (p / 2))[p % 2]? = some .outOfRange) ∨
    (∃ p q r r', p < q ∧ q < 2048 ∧ p / 4 = q / 4 ∧ (st.cardSlots (p / 2))[p % 2]? = some (.occupied r) ∧
      (st.cardSlots (q / 2))[q % 2]? = some (.occupied r') ∧ r.number = r'.number) ∨
    ∃ p q number, p < q ∧ q < 128 ∧ (st.rowPositions (p / 2))[p % 2]? = some (some number) ∧
      (st.rowPositions (q / 2))[q % 2]? = some (some number) := by
  have hrepaired : (st.scanCards c).repaired = true ↔
      (∃ b, b < 512 ∧ st.bucketRepaired b = true) ∨ st.revocationsRepaired = true := by
    simp only [Store.scanCards, Bool.or_eq_true, List.any_eq_true, List.mem_range, bucketCount]
  rw [hrepaired, Store.revocationsRepaired_iff]
  simp only [Store.bucketRepaired_iff, Store.heldLower_slot_iff, SlotRead.record_eq_some_iff, st.cardSlots_getElem,
    st.rowPositions_getElem, Option.some.injEq]
  constructor
  · rintro (⟨b, hb, p, rfl, hout | ⟨r, hread, q, r', hlt, hbucket, hq, hnumber⟩⟩ | hrow | ⟨p, number, hp, hread, hlower⟩)
    · exact .inr (.inr (.inl ⟨p, by omega, hout⟩))
    · exact .inr (.inr (.inr (.inl ⟨q, p, r', r, hlt, by omega, hbucket, hq, hread, hnumber⟩)))
    · exact .inr (.inl hrow)
    · obtain ⟨q, other, -, hlt, hq, rfl⟩ := hlower
      exact .inr (.inr (.inr (.inr ⟨q, p, _, hlt, hp, hq, hread⟩)))
  · rintro (⟨row, hrow, hfailed⟩ | hrow | ⟨p, hp, hout⟩ | ⟨p, q, r, r', hlt, hq, hbucket, hp, hread, hnumber⟩ |
      ⟨p, q, number, hlt, hq, hp, hread⟩)
    · have hhalf : 2 * row / 2 = row := by omega
      exact .inl ⟨2 * row / 4, by omega, 2 * row, rfl, .inl (Store.slotRead_of_failed (by rw [hhalf]; exact hfailed))⟩
    · exact .inr (.inl hrow)
    · exact .inl ⟨p / 4, by omega, p, rfl, .inl hout⟩
    · exact .inl ⟨q / 4, by omega, q, rfl, .inr ⟨r', hread, p, r, hlt, hbucket, hp, hnumber⟩⟩
    · exact .inr (.inr ⟨q, number, hq, hread, p, number, Nat.zero_le p, hlt, hp, rfl⟩)

end

/-! ### The evaluation that waited (R28, R51) -/

/-- The node once the evaluation that waited is no more waiting. -/
def Node.evaluationTaken (n : Node) : Node := n.withHatch { n.hatch with evaluating := none }

theorem Node.resumeEvaluation_of {n : Node} {card : CardNumber} (h : n.hatch.evaluating = some card) :
    n.resumeEvaluation = n.evaluationTaken.judgeCard card := by
  simp [Node.resumeEvaluation, h, Node.evaluationTaken]

theorem Node.resumeEvaluation_of_none {n : Node} (h : n.hatch.evaluating = none) : n.resumeEvaluation = n := by
  simp [Node.resumeEvaluation, h]

/-- With no crew card waiting the resumption changes the release and the panel, and may offer. -/
theorem Node.resumeEvaluation_aside {n : Node} (h : ∀ card, n.hatch.evaluating = some card → ¬ n.cards.IsCrew card) :
    n.evaluationTaken.JudgedAside n.resumeEvaluation := by
  cases he : n.hatch.evaluating with
  | none =>
    rw [Node.resumeEvaluation_of_none he]
    exact ⟨n.hatch, ⟨rfl, he, rfl, rfl⟩, .refl n, rfl⟩
  | some card =>
    rw [Node.resumeEvaluation_of he]
    exact Node.judgedAside_judgeCard (n := n.evaluationTaken) (h card he)

/-- The resumption keeps the records, and no card waits after it. -/
theorem Node.resumeEvaluation_keeps (n : Node) :
    n.KeepsRecords n.resumeEvaluation ∧ n.resumeEvaluation.hatch.evaluating = none := by
  have taken : n.KeepsRecords n.evaluationTaken := n.keepsRecords_withHatch _
  by_cases h : ∀ card, n.hatch.evaluating = some card → ¬ n.cards.IsCrew card
  · have aside := Node.resumeEvaluation_aside h
    obtain ⟨g, same, offers, -⟩ := id aside
    exact ⟨taken.trans aside.keepsRecords, (congrArg Hatch.evaluating offers.hatch).trans same.evaluating⟩
  · push Not at h
    obtain ⟨card, he, hcrew⟩ := h
    rw [Node.resumeEvaluation_of he, Node.judgeCard_of_crew (n := n.evaluationTaken) hcrew]
    have served := n.evaluationTaken.serviceHandling_served card
    exact ⟨taken.trans served.records, served.evaluating⟩

/-! ### The start conditions after it (R45, R161) -/

/-- A station that leaves STARTING has raising evaluated (R45, R161). -/
theorem Node.evaluateStart_of {n : Node} (h : n.leavesStart) : n.evaluateStart = n.startLeft.raiseCall := by
  have hne : n.hatch.station ≠ n.readyOrService := by
    rcases n.readyOrService_cases with hr | hr <;> rw [h.1, hr] <;> nofun
  have hstart : n.evaluateStart = if n.readyOrService = .ready then n.startLeft.raiseCall else n.startLeft := by
    unfold Node.evaluateStart
    rw [if_pos h, Node.startLeft_of h, Node.startHatch_of h]
    exact if_neg hne
  rw [hstart]
  split
  · rfl
  next hservice =>
    refine (Node.raiseCall_of_not fun hraising => hservice ?_).symm
    have hstation := hraising.2.2.1
    rwa [n.startLeft_talk.hatch, Node.withHatch_hatch, Node.startHatch_of h] at hstation

theorem Node.evaluateStart_of_not {n : Node} (h : ¬ n.leavesStart) : n.evaluateStart = n := if_neg h

/-- The evaluation of the start conditions is talk, but for the hatch controller. -/
theorem Node.evaluateStart_talk (n : Node) : (n.withHatch n.startHatch).SameButTalk n.evaluateStart := by
  by_cases h : n.leavesStart
  · rw [Node.evaluateStart_of h]
    exact n.startLeft_talk.trans n.startLeft.raiseCall_spec.1
  · rw [Node.evaluateStart_of_not h, Node.startHatch_of_not h]
    exact .refl n

/-- The start conditions leave the release and the panel as they are. -/
theorem Node.startHatch_same (n : Node) : n.hatch.SameRelease n.startHatch ∧ n.startHatch.evaluating = n.hatch.evaluating ∧
    n.startHatch.service = n.hatch.service := by
  unfold Node.startHatch
  split <;> exact ⟨⟨rfl, rfl, rfl, rfl, rfl, rfl⟩, rfl, rfl⟩

/-- A call that is raised has the tag after the last one used, and is out as soon as the polarity is known (R160, R162). -/
theorem Node.raiseCall_raised {n : Node} (h : n.raising) :
    n.raiseCall.call.state = (if n.line.polarity = .undetected then .pending else .awaiting) ∧
      n.raiseCall.call.tag = some ((n.call.lastTag + 1) % 64) ∧ n.raiseCall.call.lastTag = (n.call.lastTag + 1) % 64 ∧
      n.raiseCall.call.lead = none ∧ n.raiseCall.call.round = none ∧ n.raiseCall.call.stale = n.call.stale := by
  have hcall := n.raiseCall_spec.2.2 h
  by_cases hp : n.line.polarity = .undetected
  · rw [if_neg (mt n.mayTransmit_iff.mp (not_not.mpr hp))] at hcall
    rw [if_pos hp, hcall]
    exact ⟨rfl, rfl, rfl, rfl, rfl, rfl⟩
  · rw [if_pos (n.mayTransmit_iff.mpr hp)] at hcall
    rw [if_neg hp, hcall]
    exact ⟨rfl, rfl, rfl, rfl, rfl, rfl⟩

section
variable {before j : Node} (hstation : j.hatch.station = before.hatch.station)
include hstation

/-- A station whose start conditions hold leaves STARTING (R45, R151). -/
theorem Node.startsWhen_evaluated {met : Prop} (hmet : j.startConditions = true ↔ met)
    (hneighbour : j.neighbour = before.neighbour) : Node.StartsWhen met before j.evaluateStart.pressTrigger := by
  have same := j.evaluateStart.pressTrigger_same.1
  have hhatch : j.evaluateStart.pressTrigger.hatch = j.startHatch := same.hatch.trans j.evaluateStart_talk.hatch
  unfold Node.StartsWhen
  rw [hhatch, ← hstation, ← hmet, ← hneighbour]
  refine ⟨fun h => ⟨?_, ?_, fun hsilent => ?_⟩, fun h => ?_⟩
  · rw [Node.startHatch_of h]
  · rw [Node.startHatch_of h]
    rfl
  · rw [same.neighbour, Node.withPress_neighbour, Node.evaluateStart_of h, Node.raiseCall_phase]
    exact Node.startLeft_active h hsilent
  · rw [Node.startHatch_of_not h]

/-- Raising is evaluated when the station leaves STARTING for READY (R161, R162). -/
theorem Node.raisesCallWhen_evaluated (hcall : j.call = before.call) (hset : j.control.settings = before.control.settings)
    (hpolarity : j.line.polarity = before.line.polarity) :
    Node.RaisesCallWhen (before.hatch.station = .starting) before j.evaluateStart.pressTrigger := by
  have same := j.evaluateStart.pressTrigger_same.1
  have talk := j.evaluateStart_talk
  have hhatch : j.evaluateStart.pressTrigger.hatch = j.startHatch := same.hatch.trans talk.hatch
  have hsounding : j.evaluateStart.pressTrigger.sounding = j.sounding := same.sounding.trans talk.sounding
  have hcalled : j.evaluateStart.pressTrigger.call = j.evaluateStart.call := same.call
  unfold Node.RaisesCallWhen
  dsimp only
  rw [hhatch, hsounding, hcalled, ← hset, ← hcall, ← hstation, ← j.fillToCall_iff, ← hpolarity]
  by_cases h : j.leavesStart
  · have left := j.startLeft_talk
    have hfill : j.startLeft.fillToCall = j.fillToCall := by
      simp only [Node.fillToCall, left.sounding, left.settings, Node.withHatch_sounding, Node.withHatch_control]
    have hleft : j.startLeft.raising ↔ j.call.stopped = false ∧ j.call.state = .none ∧ j.startHatch.station = .ready ∧
        j.fillToCall = true := by
      rw [Node.raising, j.startLeft_call, left.hatch, hfill, Node.withHatch_hatch]
    have hpolarity : j.startLeft.line.polarity = j.line.polarity := left.polarity
    rw [Node.evaluateStart_of h, ← hleft]
    refine ⟨fun hdue => ?_, fun hdue => ?_⟩
    · have hraised := Node.raiseCall_raised hdue.2
      rwa [j.startLeft_call, hpolarity] at hraised
    · rw [Node.raiseCall_of_not fun hraising => hdue ⟨h.1, hraising⟩, j.startLeft_call]
  · rw [Node.evaluateStart_of_not h, Node.startHatch_of_not h]
    refine ⟨fun ⟨hstarting, _, _, hready, _⟩ => ?_, fun _ => rfl⟩
    rw [hstarting] at hready
    cases hready

end

/-- The start conditions and the trigger leave the records, and the hatch controller but for the station state. -/
theorem Node.evaluateStart_pressTrigger_keeps (n : Node) :
    n.KeepsRecords n.evaluateStart.pressTrigger ∧ n.evaluateStart.pressTrigger.hatch = n.startHatch := by
  have talk := n.evaluateStart_talk
  have same := n.evaluateStart.pressTrigger_same.1
  have started : n.KeepsRecords n.evaluateStart := (n.keepsRecords_withHatch _).trans talk.keepsRecords
  have pressed : n.evaluateStart.KeepsRecords (n.evaluateStart.withPress n.evaluateStart.pressTrigger.press) :=
    ⟨rfl, rfl, rfl, rfl, rfl, rfl⟩
  exact ⟨started.trans (pressed.trans same.keepsRecords), same.hatch.trans talk.hatch⟩

/-- The node with what the scan found, before the evaluation that waited goes on. -/
def Node.scanned (n : Node) : Node := n.withCards (n.store.scanCards n.cards)

theorem Node.cardScanEnd_of {n : Node} (h : n.cards.phase = .scanning) :
    n.cardScanEnd = n.scanned.resumeEvaluation.evaluateStart.pressTrigger := if_pos h

/-- The evaluation asks nothing of the node before that time or the scan changes. -/
theorem Node.JudgedFromStep2.of_scanned {n after : Node} {dt : Nat} {found cards : Cards} {now : Moment} {card : CardNumber}
    (h : Node.JudgedFromStep2 ((n.advance dt).withCards found) after cards now card) :
    Node.JudgedFromStep2 n after cards now card := h

/-- The card that waited is judged with the table as found. -/
theorem Node.resumeEvaluation_judged {n : Node} {card : CardNumber} (h : n.hatch.evaluating = some card) :
    Node.JudgedFromStep2 n n.resumeEvaluation n.cards n.now card := by
  rw [Node.resumeEvaluation_of h]
  exact n.evaluationTaken.judgeCard_judged card

/-- A crew card that waited is served. -/
theorem Node.resumeEvaluation_served {n : Node} {card : CardNumber} (h : n.hatch.evaluating = some card)
    (hcrew : n.cards.IsCrew card) : n.evaluationTaken.CrewServed n.resumeEvaluation card := by
  rw [Node.resumeEvaluation_of h, Node.judgeCard_of_crew (n := n.evaluationTaken) hcrew]
  exact n.evaluationTaken.serviceHandling_served card

/-- The start conditions of R45 once the scan has ended. -/
theorem Node.startConditions_iff {n : Node} (h : n.cards.phase = .opened) : n.startConditions = true ↔
    n.control.phase = .running ∧ n.log.phase = .opened ∧ n.pressHome = true ∧ n.hatch.firstSounding = true := by
  simp [Node.startConditions, h, and_assoc]

end Sys2Proof.Machine

/-- Settles O13: the table by what the rows hold, the card that waited by the steps of its evaluation, and the start conditions
after it. -/
theorem cardScanTakesWhatTheRowsHold : Obligations.CardScanTakesWhatTheRowsHold := by
  intro s dt hacts hp
  have hexec : exec (.cardTableScanEnd dt) s =
      .next ⟨(s.node.advance dt).scanned.resumeEvaluation.evaluateStart.pressTrigger, s.pending⟩ := by
    rw [← Node.cardScanEnd_of (n := s.node.advance dt) hp]
    exact State.perform_station hacts dt _
  obtain ⟨resumed, hnone⟩ := (s.node.advance dt).scanned.resumeEvaluation_keeps
  obtain ⟨after, hhatch⟩ := (s.node.advance dt).scanned.resumeEvaluation.evaluateStart_pressTrigger_keeps
  obtain ⟨release, hevaluating, hservice⟩ := (s.node.advance dt).scanned.resumeEvaluation.startHatch_same
  have keeps := resumed.trans after
  have hcards := keeps.cards
  obtain ⟨hheld, haccounting, happend⟩ := keeps.log
  obtain ⟨hphase, hslots, hentries, hcheck⟩ := s.node.store.scanCards_slots s.node.cards
  obtain ⟨hrevoked, hrevocations⟩ := s.node.store.scanCards_revoked s.node.cards
  change _ = s.node.store.scanCards s.node.cards at hcards
  refine ⟨_, hexec, ?_⟩
  rw [hcards]
  refine ⟨hphase, hentries, hrevocations, hcheck, ⟨fun p r => Store.mem_scanCards_slots, fun p _ => Store.valueAt_scanCards_slots,
    fun p c => Store.mem_scanCards_revoked, fun p _ => Store.valueAt_scanCards_revoked, Store.scanCards_repaired_iff _⟩,
    by rw [hhatch, hevaluating, hnone], keeps.store, keeps.tally, keeps.clock, keeps.fill, hheld, haccounting, happend,
    fun card hwaits => ⟨?judged, fun hcrew => ⟨?service, ?window, fun hstarting => ?station⟩⟩,
    fun hnocrew => ⟨?starts, ?raises⟩⟩
  case judged =>
    have judged := Node.resumeEvaluation_judged (n := (s.node.advance dt).scanned) hwaits
    exact (Node.JudgedFromStep2.of_scanned judged).congr (hhatch ▸ release)
  case service =>
    have served := Node.resumeEvaluation_served (n := (s.node.advance dt).scanned) hwaits hcrew
    rw [hhatch, hservice]
    exact served.service
  case window =>
    have served := Node.resumeEvaluation_served (n := (s.node.advance dt).scanned) hwaits hcrew
    have window : Node.CrewWindowGiven s.node _ _ card := served.window
    exact window.congr (hhatch ▸ release)
  case station =>
    have served := Node.resumeEvaluation_served (n := (s.node.advance dt).scanned) hwaits hcrew
    have hstation : _ = if s.node.hatch.station = .ready then _ else s.node.hatch.station := served.station
    rw [hhatch, Node.startHatch_of_not, hstation]
    rintro ⟨hstill, -⟩
    rw [hstation] at hstill
    split at hstill
    · cases hstill
    · exact hstarting hstill
  case starts =>
    obtain ⟨g, same, offers, -⟩ := Node.resumeEvaluation_aside (n := (s.node.advance dt).scanned) hnocrew
    refine Node.startsWhen_evaluated ((congrArg Hatch.station offers.hatch).trans same.station) ?_ offers.neighbour
    have hopened := (congrArg Cards.phase offers.cards).trans hphase
    have hlog : _ = s.node.log.phase := (congrArg Log.phase offers.logBut :)
    have hfirst : _ = s.node.hatch.firstSounding := (congrArg Hatch.firstSounding offers.hatch).trans same.firstSounding
    have hrunning : _ = s.node.control.phase := offers.phase
    have hhome : (s.node.advance dt).scanned.resumeEvaluation.pressHome = s.node.pressHome := by
      simp only [Node.pressHome, offers.settings, offers.press]
      rfl
    rw [Node.startConditions_iff hopened, hlog, hfirst, hrunning, hhome]
  case raises =>
    obtain ⟨g, same, offers, hpolarity⟩ := Node.resumeEvaluation_aside (n := (s.node.advance dt).scanned) hnocrew
    exact Node.raisesCallWhen_evaluated ((congrArg Hatch.station offers.hatch).trans same.station) offers.call offers.settings
      hpolarity
end

section
/-! O59 and O37 fail in states that no run reaches: a paused return of a station that has no press, and a transmit queue in
which an entry already bears the age that the next telegram takes. -/

open Sys2Proof Sys2Proof.Machine

namespace Sys2Proof.Machine

/-- A station with no press fitted, its press unit as a start leaves it but for the mark `paused`; the hatch is open. -/
def pausedUnfitted : Node :=
  { Node.reset with
    control := { Control.start .power with phase := .running, settings := { Settings.unread with pressFitted := false } }
    hatch := { Hatch.start with hatch := .opened, lift := .seated }
    press := { Press.start 0 with paused := true } }

theorem pausedUnfitted_driveLaw : pausedUnfitted.DriveLaw :=
  ⟨by decide, nofun, nofun, by decide, nofun, by decide, nofun, nofun, by decide⟩

theorem pausedUnfitted_quietLaw : pausedUnfitted.QuietLaw := ⟨by decide, by decide, by decide, by decide⟩

/-- The closing of the hatch takes up the paused return, and drives. -/
theorem hatchClosed_pausedUnfitted : ∃ n : Node, step ⟨pausedUnfitted, [.hatchClosed 0 none]⟩ = .next ⟨n, []⟩ ∧
    n.control.settings.pressFitted = false ∧ n.press.drive ≠ none :=
  ⟨_, rfl, by decide, by decide⟩

/-- An entry of class 3 with the age 1, which the second telegram offered to `releaseLost` will take. -/
def agedEntry : QueueEntry := ⟨⟨.statusAnswer, 0, 0, 250, []⟩, 3, 1, 0, false, .abandoned⟩

/-- A station in STARTING that lacks the press at home alone, its press at the end of a stroke; the fill calls for the ferry, and
four entries of age 1 wait in the transmit queue, whose next age is 0. -/
def releaseLost : Node :=
  { Node.reset with
    control := { Control.start .power with phase := .running }
    sounding := { Sounding.start 0 with phase := .idle, fill := some 900, request := none }
    cards := { Cards.start with phase := .opened }
    hatch := { Hatch.start with hatch := .closed, lift := .seated, firstSounding := true }
    log := { Log.start with phase := .opened }
    press := { Press.start 0 with kind := .normal, homeSwitch := .inactive }
    line := { Line.start with polarity := .normal, queue := [agedEntry, agedEntry, agedEntry, agedEntry] }
    neighbour := { Neighbour.start with phase := .active } }

/-- Home queues the FILL NOTICE with age 0 and the PRESS RELEASE with age 1; the CALL that is raised displaces the newest entry of
class 2 or 3 by its age 1, and the PRESS RELEASE goes with it. -/
theorem homeSwitchActive_releaseLost : ∃ n : Node,
    exec (.homeSwitchActive 0 none) ⟨releaseLost, []⟩ = .next ⟨n, []⟩ ∧
      ∀ x ∈ n.line.queue, x.telegram.kind ≠ .pressRelease :=
  ⟨_, rfl, by decide⟩

end Sys2Proof.Machine

/-- Refutes O59: its quiet law does not exclude that the return of a station with no press fitted is marked as paused (R128 gives
such a station no press unit), and the closing of the hatch then goes on with that return and drives. -/
theorem not_driveLawIsKept : ¬ Obligations.DriveLawIsKept := by
  intro h
  obtain ⟨n, hstep, hfitted, hdriven⟩ := hatchClosed_pausedUnfitted
  have quiet := (h.1 _ _ hstep).2 pausedUnfitted_driveLaw pausedUnfitted_quietLaw
  exact hdriven (quiet.unfitted hfitted).2.1

/-- Refutes O37: it speaks of every transmit queue, and in one whose entries bear the age that the PRESS RELEASE is about to take
the release leaves with the entry that a CALL displaces (R138 gives each entry an age of its own). -/
theorem not_homeSwitchEndsTheReturn : ¬ Obligations.HomeSwitchEndsTheReturn := by
  intro h
  obtain ⟨n, hexec, hnone⟩ := homeSwitchActive_releaseLost
  obtain ⟨hactive, -⟩ := h ⟨releaseLost, []⟩ 0 none (by decide) rfl
  obtain ⟨m, hm, -, hcycle, -⟩ := hactive rfl rfl
  obtain rfl : n = m := by
    have := Host.Outcome.next.inj (hexec.symm.trans hm)
    exact (State.mk.inj this).1
  obtain ⟨-, -, -, -, hqueued, -⟩ := hcycle (.inl rfl)
  obtain ⟨x, hx, -, htelegram⟩ := hqueued (by decide)
  exact hnone x hx (by rw [htelegram]; rfl)
end

section
/-! What the release law and the law of R51 and R59 speak of: the release at the hatch. Most operations leave it as it is; a
change of the card table, of the log, of a telegram or of a call never reaches it. -/

open Sys2Proof Sys2Proof.Machine

namespace Sys2Proof.Machine

/-- What the laws of a release speak of: the hatch phase, the window, the acceptance, the lock drive, the hatch, and whether the
press reads at home. -/
structure Release where
  phase      : HatchPhase
  window     : Option Moment
  acceptance : Option Acceptance
  lock       : LockDrive
  hatch      : HatchState
  home       : Bool

/-- The release that a hatch controller holds while the press reads at home or not. -/
def Hatch.release (h : Hatch) (home : Bool) : Release := ⟨h.phase, h.window, h.acceptance, h.lock, h.hatch, home⟩

/-- The release that a node holds. -/
def Node.release (n : Node) : Release := n.hatch.release n.pressHome

/-- Whether a press unit reads at home. -/
def Press.atRest (p : Press) : Bool :=
  match p.state with
  | .home | .claiming | .inhibited => true
  | .stopped => p.homeSwitch == .active
  | .forward | .dwell | .reversing | .fault => false

theorem Node.pressHome_eq (n : Node) : n.pressHome = (!n.control.settings.pressFitted || n.press.atRest) := by
  unfold Node.pressHome
  cases n.control.settings.pressFitted <;> rfl

theorem Node.release_eq {n m : Node} (hh : m.hatch = n.hatch) (hp : m.press.atRest = n.press.atRest)
    (hs : m.control.settings = n.control.settings) : m.release = n.release := by
  rw [Node.release, Node.release, Node.pressHome_eq, Node.pressHome_eq, hh, hp, hs]

/-! ### One unit -/

@[simp] theorem Node.withNow_release (n : Node) (x : Moment) : (n.withNow x).release = n.release := rfl
@[simp] theorem Node.withSounding_release (n : Node) (x : Sounding) : (n.withSounding x).release = n.release := rfl
@[simp] theorem Node.withCards_release (n : Node) (x : Cards) : (n.withCards x).release = n.release := rfl
@[simp] theorem Node.withTally_release (n : Node) (x : Tally) : (n.withTally x).release = n.release := rfl
@[simp] theorem Node.withClock_release (n : Node) (x : Clock) : (n.withClock x).release = n.release := rfl
@[simp] theorem Node.withStore_release (n : Node) (x : Store) : (n.withStore x).release = n.release := rfl
@[simp] theorem Node.withLog_release (n : Node) (x : Log) : (n.withLog x).release = n.release := rfl
@[simp] theorem Node.withLine_release (n : Node) (x : Line) : (n.withLine x).release = n.release := rfl
@[simp] theorem Node.withNeighbour_release (n : Node) (x : Neighbour) : (n.withNeighbour x).release = n.release := rfl
@[simp] theorem Node.withCall_release (n : Node) (x : Call) : (n.withCall x).release = n.release := rfl
@[simp] theorem Node.withRelay_release (n : Node) (x : Relay) : (n.withRelay x).release = n.release := rfl
@[simp] theorem Node.withPower_release (n : Node) (x : Power) : (n.withPower x).release = n.release := rfl
@[simp] theorem Node.reach_release (n : Node) (t : Moment) : (n.reach t).release = n.release := rfl
@[simp] theorem Node.advance_release (n : Node) (dt : Nat) : (n.advance dt).release = n.release := rfl
@[simp] theorem Node.withFlight_release (n : Node) (f : Flight) : (n.withFlight f).release = n.release := rfl
@[simp] theorem Node.placeRow_release (n : Node) (region : Region) (row : Nat) (bytes : List Byte) :
    (n.placeRow region row bytes).release = n.release := rfl
@[simp] theorem Node.enqueue_release (n : Node) (owner : Owner) (t : Telegram) : (n.enqueue owner t).release = n.release := rfl

@[simp] theorem Node.withControl_release {n : Node} {x : Control} (h : x.settings = n.control.settings) :
    (n.withControl x).release = n.release := Node.release_eq rfl rfl h

/-- A hatch controller with the same phase, window, acceptance, lock drive and hatch leaves the release. -/
@[simp] theorem Node.withHatch_release {n : Node} {x : Hatch} (hp : x.phase = n.hatch.phase) (hw : x.window = n.hatch.window)
    (ha : x.acceptance = n.hatch.acceptance) (hl : x.lock = n.hatch.lock) (hh : x.hatch = n.hatch.hatch) :
    (n.withHatch x).release = n.release := by
  have same : x.release n.pressHome = n.hatch.release n.pressHome := by
    rw [Hatch.release, Hatch.release, hp, hw, ha, hl, hh]
  exact same

/-- A press unit that reads at home as before leaves the release. -/
theorem Node.withPress_release_of_atRest {n : Node} {p : Press} (h : p.atRest = n.press.atRest) :
    (n.withPress p).release = n.release := Node.release_eq rfl h rfl

@[simp] theorem Node.withPress_release {n : Node} {p : Press} (hs : p.state = n.press.state)
    (hh : p.homeSwitch = n.press.homeSwitch) : (n.withPress p).release = n.release := by
  refine Node.withPress_release_of_atRest ?_
  rw [Press.atRest, Press.atRest, hs, hh]

/-- An action that comes due at a moment changes the same units as it would now. -/
@[simp] theorem Node.reach_withPress_release (n : Node) (t : Moment) (p : Press) :
    ((n.reach t).withPress p).release = (n.withPress p).release := rfl

@[simp] theorem Node.reach_withHatch_release (n : Node) (t : Moment) (x : Hatch) :
    ((n.reach t).withHatch x).release = (n.withHatch x).release := rfl

theorem Press.atRest_of_state {p : Press} (h : p.state = .home ∨ p.state = .claiming ∨ p.state = .inhibited) :
    p.atRest = true := by
  unfold Press.atRest
  rcases h with h | h | h <;> rw [h]

theorem Press.atRest_of_away {p : Press}
    (h : p.state = .forward ∨ p.state = .dwell ∨ p.state = .reversing ∨ p.state = .fault) : p.atRest = false := by
  unfold Press.atRest
  rcases h with h | h | h | h <;> rw [h]

/-- A press unit that was in one of the states at home and enters another leaves the release. -/
theorem Node.withPress_release_home {n : Node} {p : Press}
    (hn : n.press.state = .home ∨ n.press.state = .claiming ∨ n.press.state = .inhibited)
    (hp : p.state = .home ∨ p.state = .claiming ∨ p.state = .inhibited) : (n.withPress p).release = n.release :=
  Node.withPress_release_of_atRest ((Press.atRest_of_state hp).trans (Press.atRest_of_state hn).symm)

/-- A press unit that was away from home and still is leaves the release. -/
theorem Node.withPress_release_away {n : Node} {p : Press}
    (hn : n.press.state = .forward ∨ n.press.state = .dwell ∨ n.press.state = .reversing ∨ n.press.state = .fault)
    (hp : p.state = .forward ∨ p.state = .dwell ∨ p.state = .reversing ∨ p.state = .fault) :
    (n.withPress p).release = n.release :=
  Node.withPress_release_of_atRest ((Press.atRest_of_away hp).trans (Press.atRest_of_away hn).symm)

theorem Node.SameButOffers.release {n m : Node} (h : n.SameButOffers m) : m.release = n.release :=
  Node.release_eq h.hatch (congrArg Press.atRest h.press) h.settings

theorem Node.SameButTalk.release {n m : Node} (h : n.SameButTalk m) : m.release = n.release :=
  Node.release_eq h.hatch (congrArg Press.atRest h.press) h.settings

@[simp] theorem Node.offer_release (n : Node) (owner : Owner) (t : Telegram) :
    (n.offer owner t).1.release = n.release := (n.sameButOffers_offer owner t).release

@[simp] theorem Node.offerOnly_release (n : Node) (owner : Owner) (t : Telegram) :
    (n.offerOnly owner t).release = n.release := (n.sameButOffers_offerOnly owner t).release

@[simp] theorem Node.offerRedirect_release (n : Node) (card : CardNumber) (v : View) :
    (n.offerRedirect card v).release = n.release := n.offerOnly_release _ _

@[simp] theorem Node.harvestFinished_release (n : Node) : n.harvestFinished.release = n.release :=
  n.sameButOffers_harvestFinished.release

@[simp] theorem Node.answerFinished_release (n : Node) : n.answerFinished.release = n.release :=
  n.sameButOffers_answerFinished.release

@[simp] theorem Node.offerNotice_release (n : Node) : n.offerNotice.release = n.release :=
  n.offerNotice_talk.release

@[simp] theorem Node.noticeCheck_release (n : Node) : n.noticeCheck.release = n.release :=
  n.noticeCheck_talk.release

@[simp] theorem Node.noticeStation_release (n : Node) : n.noticeStation.release = n.release :=
  n.noticeStation_talk.release

@[simp] theorem Node.setCall_release (n : Node) (c : Call) : (n.setCall c).release = n.release :=
  (n.setCall_talk c).release

@[simp] theorem Node.closeCall_release (n : Node) (cause : Nat) :
    (n.closeCall cause).release = n.release :=
  (n.closeCall_talk cause).release

@[simp] theorem Node.raiseCall_release (n : Node) : n.raiseCall.release = n.release :=
  n.raiseCall_spec.1.release

theorem Node.taking_release (n : Node) (kind : Kind) {f : Node → Received → Node}
    (hf : ∀ n r, (f n r).release = n.release) : (n.taking kind f).release = n.release := by
  rcases n.taking_cases kind f with h | ⟨r, -, -, h⟩ <;> rw [h]
  rw [hf]
  rfl

@[simp] theorem Node.refuse_release (n : Node) (code : Nat) : (n.refuse code).release = n.release := rfl

@[simp] theorem Node.dropExpected_release (n : Node) (card : CardNumber) :
    (n.dropExpected card).release = n.release := rfl

@[simp] theorem Node.disown_release (n : Node) (owner : Owner) (p : Producer) :
    (n.disown owner p).release = n.release := rfl

@[simp] theorem Node.endRebuild_release (n : Node) : n.endRebuild.release = n.release := rfl

@[simp] theorem Node.countUnknownKind_release (n : Node) : n.countUnknownKind.release = n.release := rfl

@[simp] theorem Node.countDepotFailure_release (n : Node) :
    n.countDepotFailure.release = n.release := rfl

@[simp] theorem Node.countCheckFailure_release (n : Node) :
    n.countCheckFailure.release = n.release := rfl

@[simp] theorem Node.addressClash_release (n : Node) : n.addressClash.release = n.release := rfl

@[simp] theorem Node.waitAgain_release (n : Node) (e : QueueEntry) :
    (n.waitAgain e).release = n.release := rfl

@[simp] theorem Node.requestSent_release (n : Node) (dest tag : Nat) :
    (n.requestSent dest tag).release = n.release := rfl
/-- Steps that each leave what the law speaks of leave it together. -/
theorem foldl_release {α : Type} {f : Node → α → Node} (hf : ∀ n x, (f n x).release = n.release) (xs : List α)
    (n : Node) : (xs.foldl f n).release = n.release := by
  induction xs generalizing n with
  | nil => rfl
  | cons x rest ih => exact (ih (f n x)).trans (hf n x)

@[simp] theorem Node.takeEarly_release (n : Node) : n.takeEarly.release = n.release := by
  unfold Node.takeEarly
  rw [foldl_release fun _ _ => Node.withLog_release _ _]
  rfl

/-! ### Telling owners and the transmit queue -/

@[simp] theorem Node.draw_release (n : Node) (k : Nat) : (n.draw k).1.release = n.release := by
  simp [Node.draw]

/-! ### The call for the ferry and the neighbour lines -/

@[simp] theorem Node.callOffer_release (n : Node) : n.callOffer.release = n.release := by
  unfold Node.callOffer
  (repeat' split) <;> simp

@[simp] theorem Node.newCall_release (n : Node) (lead : Option Lead) :
    (n.newCall lead).release = n.release := by
  simp [Node.newCall]

@[simp] theorem Node.missedRound_release (n : Node) : n.missedRound.release = n.release := by
  unfold Node.missedRound
  (repeat' split) <;> simp

@[simp] theorem Node.scheduleCall_release (n : Node) (day hour : Nat) :
    (n.scheduleCall day hour).release = n.release := by
  simp [Node.scheduleCall]

@[simp] theorem Node.declineCall_release (n : Node) : n.declineCall.release = n.release := by
  simp [Node.declineCall]

@[simp] theorem Node.resendExpiry_release (n : Node) : n.resendExpiry.release = n.release := by
  unfold Node.resendExpiry
  (repeat' split) <;> simp

@[simp] theorem Node.lapseExpiry_release (n : Node) : n.lapseExpiry.release = n.release := by
  unfold Node.lapseExpiry
  (repeat' split) <;> simp

@[simp] theorem Node.holdOffExpiry_release (n : Node) : n.holdOffExpiry.release = n.release := by
  unfold Node.holdOffExpiry
  (repeat' split) <;> simp

@[simp] theorem Node.countStale_release (n : Node) : n.countStale.release = n.release := by
  simp [Node.countStale]

@[simp] theorem Node.hearAnswer_release (n : Node) (a : CallAnswer) :
    (n.hearAnswer a).release = n.release := by
  unfold Node.hearAnswer
  (repeat' split) <;> simp

@[simp] theorem Node.hearCall_release (n : Node) (r : Received) :
    (n.hearCall r).release = n.release := by
  unfold Node.hearCall
  (repeat' split) <;> simp

@[simp] theorem Node.hearJoin_release (n : Node) (r : Received) :
    (n.hearJoin r).release = n.release := by
  unfold Node.hearJoin
  (repeat' split) <;> simp

/-! ### The sounding -/

@[simp] theorem Node.armSounding_release (n : Node) (delay : Nat) :
    (n.armSounding delay).release = n.release := by
  simp [Node.armSounding]

@[simp] theorem Node.trySounding_release (n : Node) (reading : Option Int) :
    (n.trySounding reading).release = n.release := by
  unfold Node.trySounding
  (repeat' split) <;> simp

@[simp] theorem Node.abandonSounding_release (n : Node) : n.abandonSounding.release = n.release := by
  unfold Node.abandonSounding
  (repeat' split) <;> simp

@[simp] theorem Node.soundingUsed_release (n : Node) (repeated : Bool) (median fill : Nat) (unsteady : Bool) :
    (n.soundingUsed repeated median fill unsteady).release = n.release := by
  simp [Node.soundingUsed]

@[simp] theorem Node.soundingFailed_release (n : Node) : n.soundingFailed.release = n.release := by
  simp [Node.soundingFailed]

@[simp] theorem Node.depositEstimate_release (n : Node) : n.depositEstimate.release = n.release := by
  unfold Node.depositEstimate
  (repeat' split) <;> simp

@[simp] theorem Node.liftFill_release (n : Node) : n.liftFill.release = n.release := by
  unfold Node.liftFill
  (repeat' split) <;> simp

@[simp] theorem Node.soundingDue_release (n : Node) (reading : Option Int) :
    (n.soundingDue reading).release = n.release := by
  unfold Node.soundingDue
  (repeat' split) <;> simp

@[simp] theorem Node.startSlot_release (n : Node) (f : Flight) :
    (n.startSlot f).release = n.release := by
  unfold Node.startSlot
  (repeat' split) <;> simp

@[simp] theorem Node.burstEnd_release (n : Node) (f : Flight) (sl : PingSlot) :
    (n.burstEnd f sl).release = n.release := by
  unfold Node.burstEnd
  (repeat' split) <;> simp

@[simp] theorem Node.blankingEnd_release (n : Node) (f : Flight) (sl : PingSlot) :
    (n.blankingEnd f sl).release = n.release := by
  unfold Node.blankingEnd
  (repeat' split) <;> simp

@[simp] theorem Node.echoEdge_release (n : Node) (f : Flight) (sl : PingSlot) :
    (n.echoEdge f sl).release = n.release := by
  unfold Node.echoEdge
  (repeat' split) <;> simp

@[simp] theorem Node.windowEnd_release (n : Node) (f : Flight) (sl : PingSlot) :
    (n.windowEnd f sl).release = n.release := by
  unfold Node.windowEnd
  (repeat' split) <;> simp

@[simp] theorem Node.takeEvaluation_release (n : Node) (repeated : Bool) (e : Evaluation) :
    (n.takeEvaluation repeated e).release = n.release := by
  unfold Node.takeEvaluation
  (repeat' split) <;> simp

@[simp] theorem Node.periodicExpiry_release (n : Node) : n.periodicExpiry.release = n.release := by
  unfold Node.periodicExpiry
  (repeat' split) <;> simp

/-! ### The press -/

@[simp] theorem Node.resumePress_release (n : Node) : n.resumePress.release = n.release := by
  unfold Node.resumePress
  split
  · exact Node.withPress_release rfl rfl
  · rfl

@[simp] theorem Node.startRetry_release (n : Node) : n.startRetry.release = n.release := by
  unfold Node.startRetry
  exact (Node.withPress_release rfl rfl).trans (n.draw_release 41)

@[simp] theorem Node.claimDropped_release (n : Node) : n.claimDropped.release = n.release := by
  unfold Node.claimDropped
  split
  next h => rw [startRetry_release, Node.withPress_release_home (.inr (.inl h)) (.inl rfl)]
  · rfl

@[simp] theorem Node.releaseClaim_release (n : Node) : n.releaseClaim.release = n.release := by
  simp [Node.releaseClaim]

/-- A claim leaves the press at home (R111, R112). -/
theorem Node.claiming_release {n : Node} (h : n.press.state = .home) : n.claiming.release = n.release := by
  have hpress := (n.sameButOffers_offer .pressUnit n.claimTelegram).press
  unfold Node.claiming
  rw [Node.withPress_release_home (.inl (by rw [hpress, h])) (.inr (.inl rfl)), offer_release]

@[simp] theorem Node.pressTrigger_release (n : Node) : n.pressTrigger.release = n.release := by
  by_cases h : n.triggered
  · rw [Node.pressTrigger_of h]
    split
    · exact Node.claiming_release h.2.1
    · rw [claimDropped_release, Node.claiming_release h.2.1]
  · rw [Node.pressTrigger_of_not h]

/-! ### The deposit log -/

@[simp] theorem Node.requestRecord_release (n : Node) (body : RecordBody) (fill : Option Nat) :
    (n.requestRecord body fill).release = n.release := by
  unfold Node.requestRecord
  (repeat' split) <;> simp

@[simp] theorem Node.enterDeposit_release (n : Node) (e : LogEntry) :
    (n.enterDeposit e).release = n.release := by
  simp [Node.enterDeposit]

@[simp] theorem Node.countPressCycle_release (n : Node) : n.countPressCycle.release = n.release := by
  simp [Node.countPressCycle]

@[simp] theorem Node.placeLifetime_release (n : Node) (bytes : List Byte) :
    (n.placeLifetime bytes).release = n.release := by
  unfold Node.placeLifetime
  (repeat' split) <;> simp

@[simp] theorem Node.placeAccounting_release (n : Node) : n.placeAccounting.release = n.release := by
  unfold Node.placeAccounting
  (repeat' split) <;> simp

@[simp] theorem Node.placeWaiting_release (n : Node) : n.placeWaiting.release = n.release := by
  unfold Node.placeWaiting
  (repeat' split) <;> simp

@[simp] theorem Node.freeRecords_release (n : Node) (freed kept : List LogRecord) :
    (n.freeRecords freed kept).release = n.release := by
  unfold Node.freeRecords
  (repeat' split) <;> simp

@[simp] theorem Node.releaseFreed_release (n : Node) (taken : Bool) :
    (n.releaseFreed taken).release = n.release := by
  unfold Node.releaseFreed
  (repeat' split) <;> simp

@[simp] theorem Node.giveFreed_release (n : Node) (taken : Bool) :
    (n.giveFreed taken).release = n.release := by
  unfold Node.giveFreed
  (repeat' split) <;> simp

@[simp] theorem Node.commitRow_release (n : Node) (w : RowWrite) :
    (n.commitRow w).release = n.release := by
  unfold Node.commitRow
  dsimp only
  split <;> simp

@[simp] theorem Node.appendRecord_release (n : Node) (e : LogEntry) :
    (n.appendRecord e).release = n.release := by
  simp [Node.appendRecord]

@[simp] theorem Node.overflowItem_release (n : Node) (e : LogEntry) :
    (n.overflowItem e).release = n.release := by
  unfold Node.overflowItem
  (repeat' split) <;> simp

@[simp] theorem Node.appendOldest_release (n : Node) : n.appendOldest.release = n.release := by
  unfold Node.appendOldest
  dsimp only
  (repeat' split) <;> simp

@[simp] theorem Node.writeAccounting_release (n : Node) : n.writeAccounting.release = n.release := by
  unfold Node.writeAccounting
  (repeat' split) <;> simp

@[simp] theorem Node.writeMark_release (n : Node) : n.writeMark.release = n.release := by
  unfold Node.writeMark
  (repeat' split) <;> simp

@[simp] theorem Node.restartRecord_release (n : Node) : n.restartRecord.release = n.release := by
  unfold Node.restartRecord
  (repeat' split) <;> simp

@[simp] theorem Node.takeScan_release (n : Node) (found : ScanResult) :
    (n.takeScan found).release = n.release := by
  simp [Node.takeScan]

@[simp] theorem Node.confirm_release (n : Node) (u : Sequence) : (n.confirm u).release = n.release := by
  simp [Node.confirm]

/-! ### The hatch and the tally -/

@[simp] theorem Node.setStation_release (n : Node) (state : StationState) :
    (n.setStation state).release = n.release := by
  unfold Node.setStation
  (repeat' split) <;> simp

@[simp] theorem Node.evaluateStart_release (n : Node) : n.evaluateStart.release = n.release := by
  unfold Node.evaluateStart
  (repeat' split) <;> simp

@[simp] theorem Node.outOfService_release (n : Node) : n.outOfService.release = n.release := by
  unfold Node.outOfService
  (repeat' split) <;> simp

@[simp] theorem Node.backInService_release (n : Node) : n.backInService.release = n.release := by
  unfold Node.backInService
  (repeat' split) <;> simp

@[simp] theorem Node.beginService_release (n : Node) (card : CardNumber) :
    (n.beginService card).release = n.release := by
  unfold Node.beginService
  dsimp only
  split <;> simp

@[simp] theorem Node.endService_release (n : Node) : n.endService.release = n.release := by
  unfold Node.endService
  dsimp only
  split <;> simp

@[simp] theorem Node.countPressDeposit_release (n : Node) :
    n.countPressDeposit.release = n.release := by
  unfold Node.countPressDeposit
  (repeat' split) <;> simp

@[simp] theorem Node.endCycle_release (n : Node) : n.endCycle.release = n.release := by
  simp [Node.endCycle]

/-- A press that returned and did not reach home is as far from it (R124). -/
theorem Node.pressFault_release {n : Node} (h : n.press.state = .reversing) : n.pressFault.release = n.release := by
  have hfault : ∀ p : Press, p.state = .fault → (n.withPress p).release = n.release := fun p hp =>
    Node.withPress_release_away (.inr (.inr (.inl h))) (.inr (.inr (.inr hp)))
  unfold Node.pressFault
  dsimp only
  split
  · rw [outOfService_release, noticeCheck_release, releaseClaim_release, hfault _ rfl]
  · rw [outOfService_release, noticeCheck_release, hfault _ rfl]

@[simp] theorem Node.passResult_release (n : Node) : n.passResult.release = n.release := by
  simp [Node.passResult]

@[simp] theorem Node.soundingEnd_release (n : Node) : n.soundingEnd.release = n.release := by
  unfold Node.soundingEnd
  (repeat' split) <;> simp

@[simp] theorem Node.startRecovery_release (n : Node) : n.startRecovery.release = n.release := by
  have hpress : ∀ p : Press, n.press.state = .fault → p.state = .reversing → (n.withPress p).release = n.release :=
    fun p h hp => Node.withPress_release_away (.inr (.inr (.inr h))) (.inr (.inr (.inl hp)))
  unfold Node.startRecovery
  split
  next h =>
    rw [noticeCheck_release, abandonSounding_release]
    refine hpress _ h ?_
    split <;> rfl
  · rfl

@[simp] theorem Node.serviceExpiry_release (n : Node) : n.serviceExpiry.release = n.release := by
  unfold Node.serviceExpiry
  (repeat' split) <;> simp

/-- A standing indication shown anew leaves the release (R66). -/
@[simp] theorem Hatch.showStanding_release (h : Hatch) (now : Moment) (home : Bool) :
    (h.showStanding now).release home = h.release home := by
  unfold Hatch.showStanding
  split <;> rfl

@[simp] theorem Node.indicationExpiry_release (n : Node) : n.indicationExpiry.release = n.release := by
  unfold Node.indicationExpiry
  (repeat' split)
  · rfl
  · rfl
  · exact Hatch.showStanding_release _ _ _

@[simp] theorem Node.toneEnd_release (n : Node) : n.toneEnd.release = n.release := by
  unfold Node.toneEnd
  (repeat' split) <;> simp

/-- An interruption begins and ends away from home (R123, R125). -/
theorem Press.interrupt_atRest (p : Press) (now : Moment) : (p.interrupt now).atRest = p.atRest := by
  have haway : ∀ q : Press, q.state = .dwell ∨ q.state = .reversing → q.atRest = false :=
    fun q hq => Press.atRest_of_away (hq.elim (.inr ∘ .inl) (.inr ∘ .inr ∘ .inl))
  unfold Press.interrupt
  split
  next h => rw [haway _ (.inl rfl), Press.atRest_of_away (.inl h)]
  next h =>
    rw [haway p (.inl h)]
    split
    · exact haway _ (.inr rfl)
    · exact haway _ (.inl h)
  next h =>
    rw [haway p (.inr h)]
    split
    · refine haway _ (.inr ?_)
      unfold Press.endDrive
      split <;> exact h
    · exact haway p (.inr h)
  · rfl

@[simp] theorem Node.interruptPress_release (n : Node) : n.interruptPress.release = n.release := by
  unfold Node.interruptPress
  split
  · exact Node.withPress_release_of_atRest (Press.interrupt_atRest _ _)
  · rfl

@[simp] theorem Node.hatchSticks_release (n : Node) : n.hatchSticks.release = n.release := by
  unfold Node.hatchSticks
  (repeat' split) <;> simp

@[simp] theorem Node.liftSettles_release (n : Node) (isLifted : Bool) (reading : Option Int) :
    (n.liftSettles isLifted reading).release = n.release := by
  unfold Node.liftSettles
  (repeat' split) <;> simp

@[simp] theorem Node.liftCall_release (n : Node) : n.liftCall.release = n.release := by
  unfold Node.liftCall
  (repeat' split) <;> simp

@[simp] theorem Node.seats_release (n : Node) (reading : Option Int) :
    (n.seats reading).release = n.release := by
  unfold Node.seats
  (repeat' split) <;> simp

/-! ### The clock -/

@[simp] theorem Node.rollover_release (n : Node) (day : Nat) :
    (n.rollover day).release = n.release := by
  simp [Node.rollover]

@[simp] theorem Node.clockSecond_release (n : Node) : n.clockSecond.release = n.release := by
  unfold Node.clockSecond
  dsimp only
  (repeat' split) <;> simp

@[simp] theorem Node.takeTime_release (n : Node) (day seconds : Nat) :
    (n.takeTime day seconds).release = n.release := by
  unfold Node.takeTime
  dsimp only
  (repeat' split) <;> simp

@[simp] theorem Node.hearTally_release (n : Node) (r : Received) :
    (n.hearTally r).release = n.release := by
  unfold Node.hearTally
  (repeat' split) <;> simp

@[simp] theorem Node.hearTime_release (n : Node) (r : Received) :
    (n.hearTime r).release = n.release := by
  unfold Node.hearTime
  (repeat' split) <;> simp

/-! ### Status and requests -/

@[simp] theorem Node.buildHarvest_release (n : Node) : n.buildHarvest.release = n.release := by
  unfold Node.buildHarvest
  (repeat' split) <;> simp

@[simp] theorem Node.buildStatus_release (n : Node) : n.buildStatus.release = n.release := by
  unfold Node.buildStatus
  (repeat' split) <;> rfl

@[simp] theorem Node.produce_release (n : Node) (p : Producer) : (n.produce p).release = n.release := by
  unfold Node.produce
  (repeat' split) <;> simp

@[simp] theorem Node.offerClass3_release (n : Node) (p : Producer) :
    (n.offerClass3 p).release = n.release := by
  unfold Node.offerClass3
  (repeat' split) <;> simp

@[simp] theorem Node.admitWaiting_release (n : Node) : n.admitWaiting.release = n.release := by
  unfold Node.admitWaiting
  (repeat' split) <;> simp

@[simp] theorem Node.requestStatus_release (n : Node) (tag : Nat) :
    (n.requestStatus tag).release = n.release := by
  unfold Node.requestStatus
  (repeat' split) <;> rfl

@[simp] theorem Node.fixHarvest_release (n : Node) (tag : Nat) (f : Sequence) (m : Nat) :
    (n.fixHarvest tag f m).release = n.release := by
  simp [Node.fixHarvest]

/-! ### The relay and the depot -/

@[simp] theorem Node.toDepot_release (n : Node) (t : Telegram) : (n.toDepot t).release = n.release := by
  unfold Node.toDepot
  (repeat' split) <;> simp

@[simp] theorem Node.noAnswer_release (n : Node) (o : Outstanding) :
    (n.noAnswer o).release = n.release := by
  simp [Node.noAnswer]

@[simp] theorem Node.matchRequest_release (n : Node) (t : Telegram) :
    (n.matchRequest t).release = n.release := by
  unfold Node.matchRequest
  (repeat' split) <;> simp

@[simp] theorem Node.forwardToDepot_release (n : Node) (t : Telegram) :
    (n.forwardToDepot t).release = n.release := by
  unfold Node.forwardToDepot
  (repeat' split) <;> simp

@[simp] theorem Node.setRelayClock_release (n : Node) (t : Telegram) :
    (n.setRelayClock t).release = n.release := by
  unfold Node.setRelayClock
  (repeat' split) <;> simp

@[simp] theorem Node.answerRelayStatus_release (n : Node) (tag : Nat) :
    (n.answerRelayStatus tag).release = n.release :=
  Node.toDepot_release _ _

@[simp] theorem Node.receive_release (n : Node) (t : Telegram) : (n.receive t).release = n.release := by
  unfold Node.receive
  (repeat' split) <;> simp

@[simp] theorem Node.relayOwn_release (n : Node) (t : Telegram) :
    (n.relayOwn t).release = n.release := by
  unfold Node.relayOwn
  (repeat' split) <;> simp

@[simp] theorem Node.relayTake_release (n : Node) (t : Telegram) :
    (n.relayTake t).release = n.release := by
  unfold Node.relayTake
  (repeat' split) <;> simp

@[simp] theorem Node.fromDepot_release (n : Node) (t : Telegram) :
    (n.fromDepot t).release = n.release := by
  unfold Node.fromDepot
  (repeat' split) <;> simp

@[simp] theorem Node.huntDepot_release (n : Node) : n.huntDepot.release = n.release := by
  simp [Node.huntDepot]

@[simp] theorem Node.discardFrame_release (n : Node) : n.discardFrame.release = n.release := by
  simp [Node.discardFrame]

@[simp] theorem Node.depotTelegram_release (n : Node) (bytes : List Byte) :
    (n.depotTelegram bytes).release = n.release := by
  unfold Node.depotTelegram
  (repeat' split) <;> simp

@[simp] theorem Node.depotChar_release (n : Node) (c : HeardChar) :
    (n.depotChar c).release = n.release := by
  unfold Node.depotChar
  (repeat' split) <;> simp

@[simp] theorem Node.dropStaleFrame_release (n : Node) : n.dropStaleFrame.release = n.release := by
  unfold Node.dropStaleFrame
  (repeat' split) <;> simp

@[simp] theorem Node.createRequest_release (n : Node) (dest tag : Nat) (kind : Kind) :
    (n.createRequest dest tag kind).release = n.release := by
  unfold Node.createRequest
  dsimp only
  (repeat' split) <;> simp

@[simp] theorem Node.requestFails_release (n : Node) (o : Outstanding) :
    (n.requestFails o).release = n.release := by
  simp [Node.requestFails]

@[simp] theorem Node.requestDropped_release (n : Node) (dest tag : Nat) :
    (n.requestDropped dest tag).release = n.release := by
  unfold Node.requestDropped
  (repeat' split) <;> simp

@[simp] theorem Node.offerFromDepot_release (n : Node) : n.offerFromDepot.release = n.release := by
  unfold Node.offerFromDepot
  dsimp only
  (repeat' split) <;> simp

@[simp] theorem Node.frameTimeout_release (n : Node) : n.frameTimeout.release = n.release := by
  unfold Node.frameTimeout
  (repeat' split) <;> simp

@[simp] theorem Node.beginFrame_release (n : Node) (cts : Bool) :
    (n.beginFrame cts).release = n.release := by
  unfold Node.beginFrame
  (repeat' split) <;> simp

@[simp] theorem Node.endFrame_release (n : Node) : n.endFrame.release = n.release := by
  unfold Node.endFrame
  (repeat' split) <;> simp

@[simp] theorem Node.answerExpiry_release (n : Node) : n.answerExpiry.release = n.release := by
  unfold Node.answerExpiry
  (repeat' split) <;> simp

@[simp] theorem Node.originate_release (n : Node) : n.originate.release = n.release := by
  unfold Node.originate
  (repeat' split) <;> simp

/-! ### The bus line -/

@[simp] theorem Node.receptionFails_release (n : Node) : n.receptionFails.release = n.release := by
  unfold Node.receptionFails
  (repeat' split) <;> simp

@[simp] theorem Node.fixPolarity_release (n : Node) (p : Polarity) :
    (n.fixPolarity p).release = n.release := by
  simp [Node.fixPolarity]

@[simp] theorem Node.enterProvisional_release (n : Node) : n.enterProvisional.release = n.release := by
  simp [Node.enterProvisional]

@[simp] theorem Node.takeCandidate_release (n : Node) : n.takeCandidate.release = n.release := by
  unfold Node.takeCandidate
  dsimp only
  (repeat' split) <;> simp

@[simp] theorem Node.lineIdle_release (n : Node) : n.lineIdle.release = n.release := by
  unfold Node.lineIdle
  (repeat' split) <;> simp

@[simp] theorem Node.receptionBegins_release (n : Node) : n.receptionBegins.release = n.release := by
  unfold Node.receptionBegins
  (repeat' split) <;> simp

@[simp] theorem Node.beginSending_release (n : Node) (age : Nat) (taken : Telegram) :
    (n.beginSending age taken).release = n.release := by
  unfold Node.beginSending
  (repeat' split) <;> simp

@[simp] theorem Node.tellDropped_release (n : Node) (e : QueueEntry) :
    (n.tellDropped e).release = n.release := by
  unfold Node.tellDropped
  (repeat' split) <;> simp

@[simp] theorem Node.leaveQueue_release (n : Node) (e : QueueEntry) :
    (n.leaveQueue e).release = n.release := by
  simp [Node.leaveQueue]

@[simp] theorem Node.dropCollided_release (n : Node) (e : QueueEntry) :
    (n.dropCollided e).release = n.release := by
  simp [Node.dropCollided]

@[simp] theorem Node.collide_release (n : Node) : n.collide.release = n.release := by
  unfold Node.collide
  dsimp only
  (repeat' split) <;> simp

@[simp] theorem Node.dispatch_release (n : Node) (t : Telegram) :
    (n.dispatch t).release = n.release := by
  unfold Node.dispatch
  (repeat' split) <;> simp

@[simp] theorem Node.takeGood_release (n : Node) (bytes : List Byte) :
    (n.takeGood bytes).release = n.release := by
  unfold Node.takeGood
  (repeat' split) <;> simp

@[simp] theorem Node.takeAdopted_release (n : Node) (good : Option (List Byte)) :
    (n.takeAdopted good).release = n.release := by
  unfold Node.takeAdopted
  (repeat' split) <;> simp

@[simp] theorem Node.takeUndetected_release (n : Node) (normal inverted : Option (List Byte)) :
    (n.takeUndetected normal inverted).release = n.release := by
  unfold Node.takeUndetected
  (repeat' split) <;> simp

@[simp] theorem Node.takeProvisional_release (n : Node) (normal inverted : Option (List Byte)) :
    (n.takeProvisional normal inverted).release = n.release := by
  unfold Node.takeProvisional
  (repeat' split) <;> simp

@[simp] theorem Node.receptionEnds_release (n : Node) (normal inverted : List HeardChar) :
    (n.receptionEnds normal inverted).release = n.release := by
  unfold Node.receptionEnds
  dsimp only
  (repeat' split) <;> simp

@[simp] theorem Node.deferEnd_release (n : Node) : n.deferEnd.release = n.release := by
  unfold Node.deferEnd
  (repeat' split) <;> simp

@[simp] theorem Node.silenceExpiry_release (n : Node) : n.silenceExpiry.release = n.release := by
  unfold Node.silenceExpiry
  (repeat' split) <;> simp

@[simp] theorem Node.correctionExpiry_release (n : Node) : n.correctionExpiry.release = n.release := by
  unfold Node.correctionExpiry
  (repeat' split) <;> simp

/-! ### The neighbours -/

@[simp] theorem Node.noticeExpiry_release (n : Node) : n.noticeExpiry.release = n.release := by
  unfold Node.noticeExpiry
  (repeat' split) <;> simp

@[simp] theorem Node.hearNotice_release (n : Node) (r : Received) :
    (n.hearNotice r).release = n.release := by
  unfold Node.hearNotice
  (repeat' split) <;> simp

@[simp] theorem Node.viewExpiry_release (n : Node) : n.viewExpiry.release = n.release := by
  unfold Node.viewExpiry
  (repeat' split) <;> simp

@[simp] theorem Node.hearRedirect_release (n : Node) (r : Received) :
    (n.hearRedirect r).release = n.release := by
  unfold Node.hearRedirect
  (repeat' split) <;> simp

@[simp] theorem Node.expectExpiry_release (n : Node) : n.expectExpiry.release = n.release := by
  unfold Node.expectExpiry
  (repeat' split) <;> simp

/-! ### The press's commands -/

@[simp] theorem Node.claimExpiry_release (n : Node) : n.claimExpiry.release = n.release := by
  unfold Node.claimExpiry
  (repeat' split) <;> simp

@[simp] theorem Node.retryExpiry_release (n : Node) : n.retryExpiry.release = n.release := by
  unfold Node.retryExpiry
  (repeat' split) <;> simp

@[simp] theorem Node.inhibitExpiry_release (n : Node) : n.inhibitExpiry.release = n.release := by
  unfold Node.inhibitExpiry
  split
  · rfl
  · rw [pressTrigger_release, reach_withPress_release]
    by_cases h : n.press.state = .inhibited
    · exact Node.withPress_release_home (.inr (.inr h)) (.inl (if_pos h))
    · exact Node.withPress_release (if_neg h) rfl

@[simp] theorem Node.softStep_release (n : Node) : n.softStep.release = n.release := by
  unfold Node.softStep
  (repeat' split)
  · rw [abandonSounding_release, reach_withPress_release]
    exact Node.withPress_release rfl rfl
  · rfl
  · simp
  · rfl

/-- The ordinary end of a forward drive leaves the press away from home (R121). -/
theorem Node.endForward_release {n : Node} (h : n.press.state = .forward) (now : Moment) :
    (n.withPress (n.press.endForward now)).release = n.release :=
  Node.withPress_release_away (.inl h) (.inr (.inl rfl))

@[simp] theorem Node.loadTrip_release (n : Node) : n.loadTrip.release = n.release := by
  unfold Node.loadTrip
  split
  next hforward _ =>
    split
    · exact Node.endForward_release hforward _
    · rfl
  · rfl

@[simp] theorem Node.endSwitch_release (n : Node) (isActive : Bool) : (n.endSwitch isActive).release = n.release := by
  unfold Node.endSwitch
  dsimp only
  split
  next hforward _ => exact (Node.endForward_release hforward _).trans (Node.withPress_release rfl rfl)
  · exact Node.withPress_release rfl rfl

@[simp] theorem Node.forwardLimitReached_release (n : Node) : n.forwardLimitReached.release = n.release := by
  unfold Node.forwardLimitReached
  split
  next d hforward _ => exact Node.endForward_release hforward (n.reach (d.began + forwardLimit)).now
  · rfl

@[simp] theorem Node.dwellEnd_release (n : Node) : n.dwellEnd.release = n.release := by
  unfold Node.dwellEnd
  split
  next hdwell _ => exact Node.withPress_release_away (.inr (.inl hdwell)) (.inr (.inr (.inl rfl)))
  · rfl

@[simp] theorem Node.reverseLimitReached_release (n : Node) : n.reverseLimitReached.release = n.release := by
  unfold Node.reverseLimitReached
  split
  next hreverse _ => rw [Node.pressFault_release (by exact hreverse), reach_release]
  · rfl

@[simp] theorem Node.driveHoming_release (n : Node) : n.driveHoming.release = n.release := by
  unfold Node.driveHoming
  rw [abandonSounding_release]
  exact Node.withPress_release rfl rfl

@[simp] theorem Node.homingStart_release (n : Node) : n.homingStart.release = n.release := by
  unfold Node.homingStart
  (repeat' split) <;> simp

@[simp] theorem Node.hearStatusRequest_release (n : Node) (r : Received) :
    (n.hearStatusRequest r).release = n.release := by
  unfold Node.hearStatusRequest
  (repeat' split) <;> simp

@[simp] theorem Node.logScanEnd_release (n : Node) : n.logScanEnd.release = n.release := by
  unfold Node.logScanEnd
  (repeat' split) <;> simp

end Sys2Proof.Machine
end

section
/-! What opens, restarts and ends a release, and the two laws about it: O22 and O58. -/

open Sys2Proof Sys2Proof.Machine

namespace Sys2Proof.Machine

/-! ### The release law (R57 to R60) -/

/-- The release law but for the read: the lock is driven in the phase WINDOW alone, a window stands with the hatch closed and
the press at home, and a deferred release waits with the hatch closed. -/
structure Release.Lawful (r : Release) : Prop where
  driven   : r.lock ≠ .off → r.phase = .window
  window   : r.phase = .window → r.window.isSome = true ∧ r.home = true ∧ r.hatch = .closed
  deferred : r.phase = .deferred → r.hatch = .closed

theorem Node.releaseLaw_iff (n : Node) :
    n.ReleaseLaw ↔ n.release.Lawful ∧ (n.control.phase = .reading → n.hatch.phase = .idle) :=
  ⟨fun ⟨driven, window, deferred, reading⟩ => ⟨⟨driven, window, deferred⟩, reading⟩,
    fun ⟨⟨driven, window, deferred⟩, reading⟩ => ⟨driven, window, deferred, reading⟩⟩

/-- Outside of the phase WINDOW the lock is not driven (R58). -/
theorem Release.Lawful.off {r : Release} (h : r.Lawful) (hp : r.phase ≠ .window) : r.lock = .off := by
  by_contra hlock
  exact hp (h.driven hlock)

/-- With the hatch not closed no window stands and no release waits. -/
theorem Release.Lawful.of_ajar {r : Release} (h : r.Lawful) (hh : r.hatch ≠ .closed) :
    r.phase ≠ .window ∧ r.phase ≠ .deferred ∧ r.lock = .off :=
  have hp : r.phase ≠ .window := fun hp => hh (h.window hp).2.2
  ⟨hp, fun hp => hh (h.deferred hp), h.off hp⟩

/-- What a step makes of a release: the release law is kept, and a window that opens or restarts is for a card that is not on
the revocation list. -/
structure Node.Releases (n m : Node) : Prop where
  lawful : n.release.Lawful → m.release.Lawful
  window : m.hatch.window = none ∨ m.hatch.window = n.hatch.window ∨
    ∃ a, m.hatch.acceptance = some a ∧ m.cards.isRevoked a.card = false

section
variable {n m k : Node}

theorem Node.Releases.of_same (h : m.release = n.release) : n.Releases m :=
  ⟨fun law => h ▸ law, .inr (.inl (congrArg Release.window h :))⟩

/-- A step before which the release was left as it was. -/
theorem Node.Releases.before (h : m.Releases k) (hm : m.release = n.release) : n.Releases k := by
  refine ⟨fun law => h.lawful (hm ▸ law), ?_⟩
  rw [show n.hatch.window = m.hatch.window from (congrArg Release.window hm).symm]
  exact h.window

/-- A step after which the release and the card table were left as they were. -/
theorem Node.Releases.after (h : n.Releases m) (hk : k.release = m.release) (ht : k.tablePart = m.tablePart) :
    n.Releases k := by
  refine ⟨fun law => hk ▸ h.lawful law, ?_⟩
  rw [show k.hatch.window = m.hatch.window from (congrArg Release.window hk :),
    show k.hatch.acceptance = m.hatch.acceptance from (congrArg Release.acceptance hk :), Node.cards_of_tablePart ht]
  exact h.window

/-- What leaves no window standing: the lock is off, and a deferred release waits with the hatch closed. -/
theorem Node.Releases.of_shut (hp : m.hatch.phase ≠ .window) (hl : n.release.Lawful → m.hatch.lock = .off)
    (hd : n.release.Lawful → m.hatch.phase = .deferred → m.hatch.hatch = .closed)
    (hw : m.hatch.window = none ∨ m.hatch.window = n.hatch.window) : n.Releases m :=
  ⟨fun law => ⟨fun hlock => absurd (hl law) hlock, fun hwindow => absurd hwindow hp, hd law⟩, hw.imp_right .inl⟩

/-- A release that ends (R57, R59). -/
theorem Node.Releases.of_ended {g : Hatch} (hr : m.hatch.release false = g.endRelease.release false) : n.Releases m := by
  obtain ⟨p, b, hended⟩ := g.endRelease_spec
  rw [hended] at hr
  obtain ⟨hphase, hwindow, -, hlock, -⟩ := Release.mk.inj hr
  exact .of_shut (by rw [hphase]; nofun) (fun _ => hlock)
    (fun _ hdeferred => nomatch hphase.symm.trans hdeferred) (.inl hwindow)

theorem Node.releases_endRelease : n.Releases (n.withHatch n.hatch.endRelease) := .of_ended (g := n.hatch) rfl

theorem Node.releases_endRelease_show (now : Moment) (i : Indication) :
    n.Releases (n.withHatch (n.hatch.endRelease.show now i)) := .of_ended (g := n.hatch) rfl

theorem Hatch.openWindow_release (h : Hatch) (now : Moment) (home : Bool) : (h.openWindow now).release home =
    ⟨.window, some (now + windowLength), h.acceptance, .pullIn (now + pullInLength), h.hatch, home⟩ :=
  Hatch.showStanding_release _ _ _

/-- A window that opens or restarts, with the hatch closed and the press at home, for a card that is not revoked. -/
theorem Node.releases_openWindow {h : Hatch} {a : Acceptance} (now : Moment) (ha : h.acceptance = some a)
    (hrevoked : n.cards.isRevoked a.card = false)
    (hfree : n.release.Lawful → h.hatch = .closed ∧ n.pressHome = true) : n.Releases (n.withHatch (h.openWindow now)) := by
  have hopen : (n.withHatch (h.openWindow now)).release = _ := h.openWindow_release now n.pressHome
  refine ⟨fun law => ?_, .inr (.inr ⟨a, (congrArg Release.acceptance hopen).trans ha, hrevoked⟩)⟩
  obtain ⟨hclosed, hhome⟩ := hfree law
  rw [hopen]
  exact ⟨fun _ => rfl, fun _ => ⟨rfl, hhome, hclosed⟩, nofun⟩

end

/-! ### The evaluation of a card (R51 to R60) -/

section
variable {n : Node} {card : CardNumber}

theorem Node.releases_refuseEarly (n : Node) (card : CardNumber) (code : Nat) : n.Releases (n.refuseEarly card code) := by
  unfold Node.refuseEarly
  split
  · exact Node.releases_endRelease_show _ _
  · exact .of_same rfl

theorem Node.redirectCard_release (n : Node) (card : CardNumber) : (n.redirectCard card).release = n.release := by
  unfold Node.redirectCard
  split
  · rw [offerRedirect_release]
    rfl
  · rfl

/-- A quiet hatch holds no release, and reads closed. -/
theorem Node.hatchQuiet_iff (n : Node) :
    n.hatchQuiet = true ↔ n.hatch.phase = .idle ∧ n.hatch.hatch = .closed ∧ n.hatch.lift = .seated := by
  simp [Node.hatchQuiet, Node.hatchClosed, Node.liftSeated, and_assoc]

/-- An accepted card gets a window with the press at home, and else a deferred release (R55, R57, R59). -/
theorem Node.releases_acceptCard {a : Acceptance} (hquiet : n.hatchQuiet = true) (hrevoked : n.cards.isRevoked a.card = false) :
    n.Releases (n.acceptCard a) := by
  obtain ⟨hidle, hclosed, -⟩ := n.hatchQuiet_iff.mp hquiet
  unfold Node.acceptCard
  split
  next hhome => exact Node.releases_openWindow n.now rfl hrevoked fun _ => ⟨hclosed, hhome⟩
  · have hdeferred : (n.withHatch (n.hatch.defer n.now a)).release =
        ⟨.deferred, n.hatch.window, some a, n.hatch.lock, n.hatch.hatch, n.pressHome⟩ := Hatch.showStanding_release _ _ _
    obtain ⟨hphase, hwindow, -, hlock, hhatch, -⟩ := Release.mk.inj hdeferred
    refine .of_shut (by rw [hphase]; nofun) (fun law => ?_) (fun _ _ => ?_) (.inr ?_)
    · rw [hlock]
      exact law.off (by rw [show n.release.phase = _ from hidle]; nofun)
    · rw [hhatch, hclosed]
    · rw [hwindow]

theorem Node.releases_judgeDeposit {r : CardRecord} (hrevoked : n.cards.isRevoked r.number = false) :
    n.Releases (n.judgeDeposit r) := by
  unfold Node.judgeDeposit
  split
  · exact .of_same rfl
  next hfree =>
    split
    · exact .of_same (n.redirectCard_release r.number)
    · dsimp only
      split
      · exact .of_same rfl
      · exact Node.releases_acceptCard (by simp_all [Node.hatchBusy]) hrevoked

/-- The card whose own acceptance is pending has it in a window or a deferred release (R56). -/
theorem Hatch.ownPending_iff (h : Hatch) (card : CardNumber) : h.ownPending card = true ↔
    (h.phase = .window ∨ h.phase = .deferred) ∧ ∃ a, h.acceptance = some a ∧ a.card = card := by
  unfold Hatch.ownPending
  cases h.acceptance <;> simp

theorem Node.releases_presentAgain (hown : n.hatch.ownPending card = true) (hrevoked : n.cards.isRevoked card = false) :
    n.Releases n.presentAgain := by
  obtain ⟨-, a, ha, rfl⟩ := (n.hatch.ownPending_iff card).mp hown
  unfold Node.presentAgain
  split
  next hwindow =>
    exact Node.releases_openWindow n.now ha hrevoked fun law =>
      ⟨(law.window hwindow).2.2, (law.window hwindow).2.1⟩
  · exact .of_same (Hatch.showStanding_release _ _ _)

/-- A crew window (R60). -/
theorem Node.releases_crewWindow (hrevoked : n.cards.isRevoked card = false) : n.Releases (n.crewWindow card) := by
  unfold Node.crewWindow
  split
  · exact .of_same rfl
  next haway =>
    have hhome : n.pressHome = true := by simpa using haway
    split
    · exact .of_same rfl
    next hbusy =>
      have hfree : n.hatch.hatch = .closed ∧ (n.hatch.phase = .window → n.hatch.ownPending card = true) := by
        simp_all [Node.crewBusy, Node.hatchClosed]
      split
      next hwindow =>
        obtain ⟨-, a, ha, rfl⟩ := (n.hatch.ownPending_iff card).mp (hfree.2 hwindow)
        exact Node.releases_openWindow n.now ha hrevoked fun _ => ⟨hfree.1, hhome⟩
      · exact Node.releases_openWindow n.now rfl hrevoked fun _ => ⟨hfree.1, hhome⟩

theorem Node.releases_serviceHandling (hrevoked : n.cards.isRevoked card = false) : n.Releases (n.serviceHandling card) := by
  have hcards : (n.beginService card).cards = n.cards := Node.cards_of_tablePart (n.beginService_tablePart card)
  have hwindow : n.Releases ((n.beginService card).crewWindow card) :=
    (Node.releases_crewWindow (by rw [hcards, hrevoked])).before (n.beginService_release card)
  unfold Node.serviceHandling
  dsimp only
  split
  · exact hwindow.after (startRecovery_release _) (startRecovery_tablePart _)
  · exact hwindow

/-- A record found is the card's own. -/
theorem Cards.lookup_number {c : Cards} {r : CardRecord} (h : c.lookup card = some r) : r.number = card := by
  unfold Cards.lookup at h
  split at h
  · cases h
  · obtain ⟨s, hs, rfl⟩ := Option.map_eq_some_iff.mp h
    exact (slotHolding_some hs).2.2

/-- No step of the evaluation opens a window for a revoked card: step 2 has refused it (R51). -/
theorem Node.releases_judgeCard (n : Node) (card : CardNumber) : n.Releases (n.judgeCard card) := by
  unfold Node.judgeCard
  split
  · exact n.releases_refuseEarly card 11
  next hrevoked =>
    have hrevoked : n.cards.isRevoked card = false := by simpa using hrevoked
    split
    · exact n.releases_refuseEarly card 12
    next r hr =>
      split
      · exact n.releases_refuseEarly card 13
      split
      · exact Node.releases_serviceHandling hrevoked
      split
      · exact n.releases_refuseEarly card 90
      split
      · exact n.releases_refuseEarly card 14
      split
      next hown => exact Node.releases_presentAgain hown hrevoked
      · exact Node.releases_judgeDeposit (by rw [Cards.lookup_number hr, hrevoked])

end

theorem Node.releases_evaluateCard (n : Node) (card : CardNumber) : n.Releases (n.evaluateCard card) := by
  unfold Node.evaluateCard
  split
  · exact n.releases_refuseEarly card 91
  split
  · exact .of_same (by simp)
  · exact n.releases_judgeCard card

theorem Node.releases_cardRead (n : Node) (card : CardNumber) : n.Releases (n.cardRead card) := by
  unfold Node.cardRead
  split
  · exact .of_same rfl
  dsimp only
  split
  · exact .of_same (by simp)
  · refine .after ?_ (pressTrigger_release _) (pressTrigger_tablePart _)
    exact (Node.releases_evaluateCard _ card).before (withHatch_release rfl rfl rfl rfl rfl)

/-- A card whose evaluation waited for the scan is judged with the table that the scan leaves (R28, R40, R41). -/
theorem Node.releases_cardScanEnd (n : Node) : n.Releases n.cardScanEnd := by
  have hresumed : ∀ m : Node, m.Releases m.resumeEvaluation := fun m => by
    unfold Node.resumeEvaluation
    split
    · exact .of_same rfl
    · exact (Node.releases_judgeCard _ _).before (withHatch_release rfl rfl rfl rfl rfl)
  unfold Node.cardScanEnd
  split
  · refine .after ((hresumed _).before (withCards_release n (n.store.scanCards n.cards))) ?_ ?_
    · rw [pressTrigger_release, evaluateStart_release]
    · rw [pressTrigger_tablePart, evaluateStart_tablePart]
  · exact .of_same rfl

/-! ### The timers of a release (R57 to R59) -/

theorem Node.releases_windowExpiry (n : Node) : n.Releases n.windowExpiry := by
  unfold Node.windowExpiry
  split
  · exact .of_same rfl
  next t _ =>
    refine .after ?_ (pressTrigger_release _) (pressTrigger_tablePart _)
    exact (Node.releases_endRelease (n := n.reach t)).before rfl

theorem Node.releases_deferredExpiry (n : Node) : n.Releases n.deferredExpiry := by
  unfold Node.deferredExpiry
  split
  · exact .of_same rfl
  next t _ => exact (Node.releases_endRelease_show (n := n.reach t) (n.reach t).now _).before rfl

/-- The lock goes on being driven at the end of the pull-in (R58). -/
theorem Node.releases_pullInEnd (n : Node) : n.Releases n.pullInEnd := by
  unfold Node.pullInEnd
  split
  next t hlock =>
    exact ⟨fun law => ⟨fun _ => law.driven (by rw [show n.release.lock = _ from hlock]; nofun), law.window, law.deferred⟩,
      .inr (.inl rfl)⟩
  · exact .of_same rfl

/-! ### The hatch and the lift (R48, R49, R61, R62) -/

theorem Node.releases_hatchSettles (n : Node) (isOpen : Bool) (reading : Option Int) :
    n.Releases (n.hatchSettles isOpen reading) := by
  unfold Node.hatchSettles
  split
  next hunsettled =>
    have hajar : n.release.hatch ≠ .closed := by rw [show n.release.hatch = _ from hunsettled]; nofun
    split
    · exact .of_shut nofun (fun law => (law.of_ajar hajar).2.2) nofun (.inr rfl)
    · have hclosed : n.Releases (n.withHatch { n.hatch with hatch := .closed }) :=
        ⟨fun law => ⟨law.driven, fun hwindow => absurd hwindow (law.of_ajar hajar).1, fun _ => rfl⟩, .inr (.inl rfl)⟩
      exact hclosed.after (by simp) (by simp)
  · exact .of_same rfl

/-- A forced opening changes the phase (R61). -/
theorem Node.forcedOpening_release (n : Node) : n.forcedOpening.release = { n.release with phase := .forcedOpening } := by
  unfold Node.forcedOpening
  rw [requestRecord_release]
  rfl

/-- An opening leaves a window, ends a deferred release, and else forces the hatch (R61). -/
theorem Node.releases_openByPhase {n m : Node} (hphase : m.hatch.phase = n.hatch.phase) (hlock : m.hatch.lock = n.hatch.lock)
    (hwindow : m.hatch.window = n.hatch.window) : n.Releases m.openByPhase := by
  have hforced : ∀ k : Node, (n.release.Lawful → k.hatch.lock = .off) →
      k.hatch.window = none ∨ k.hatch.window = n.hatch.window → n.Releases k.forcedOpening := fun k hl hw => by
    obtain ⟨hkphase, hkwindow, -, hklock, -⟩ := Release.mk.inj k.forcedOpening_release
    exact .of_shut (by rw [hkphase]; nofun) (fun law => hklock.trans (hl law))
      (fun _ hdeferred => nomatch hkphase.symm.trans hdeferred) (by rw [hkwindow]; exact hw)
  have hoff : n.hatch.phase ≠ .window → n.release.Lawful → m.hatch.lock = .off := fun hp law => hlock.trans (law.off hp)
  have hstays : m.hatch.phase ≠ .window → m.hatch.phase ≠ .deferred → n.Releases m := fun hp hd =>
    .of_shut hp (hoff (hphase ▸ hp)) (fun _ h => absurd h hd) (.inr hwindow)
  unfold Node.openByPhase
  split
  next hp =>
    obtain ⟨p, b, hleft⟩ := m.hatch.leaveWindow_spec (if m.hatch.crewAccepted then .crewOpening else .deposit)
    rw [hleft]
    have hopen : (if m.hatch.crewAccepted then HatchPhase.crewOpening else .deposit) ≠ .window ∧
        (if m.hatch.crewAccepted then HatchPhase.crewOpening else .deposit) ≠ .deferred := by
      split <;> decide
    exact .of_shut hopen.1 (fun _ => rfl) (fun _ h => absurd h hopen.2) (.inl rfl)
  next hp =>
    obtain ⟨p, b, hended⟩ := m.hatch.endRelease_spec
    rw [hended]
    exact hforced _ (fun _ => rfl) (.inl rfl)
  next hp => exact hforced m (hoff (by rw [← hphase, hp]; nofun)) (.inr hwindow)
  all_goals next hp => exact hstays (by rw [hp]; nofun) (by rw [hp]; nofun)

theorem Node.releases_hatchOpens (n : Node) : n.Releases n.hatchOpens := by
  unfold Node.hatchOpens
  split
  · refine .after (Node.releases_openByPhase (m := n.withHatch { n.hatch with hatch := .opened, openSince := some n.now })
      rfl rfl rfl) ?_ ?_
    · rw [pressTrigger_release, interruptPress_release, abandonSounding_release]
    · rw [pressTrigger_tablePart, interruptPress_tablePart, abandonSounding_tablePart]
  · exact .of_same rfl

/-- A completed deposit discards its acceptance; the release is else as it was (R55, R63). -/
theorem Node.completeDeposit_release (n : Node) : n.completeDeposit.release = { n.release with acceptance := none } := by
  have hdiscards : ∀ m : Node, m.release = n.release →
      (m.countPressDeposit.withHatch { m.hatch with acceptance := none }).release = { n.release with acceptance := none } :=
    fun m h => by
      rw [Node.countPressDeposit_eq, ← h]
      exact congrArg (fun r : Release => { r with acceptance := none }) (withPress_release (n := m) rfl rfl)
  unfold Node.completeDeposit
  split
  next hnone => exact (congrArg (fun a => { n.release with acceptance := a }) hnone :)
  · exact hdiscards _ (by simp)

/-- A closing ends the opening, and no window stands (R62). -/
theorem Node.releases_closeByPhase {n m : Node} (h : n.release.hatch ≠ .closed) (hphase : m.hatch.phase = n.hatch.phase)
    (hlock : m.hatch.lock = n.hatch.lock) (hwindow : m.hatch.window = n.hatch.window)
    (hclosed : m.hatch.hatch = .closed) : n.Releases m.closeByPhase := by
  have hoff : n.release.Lawful → m.hatch.lock = .off := fun law => hlock.trans (law.of_ajar h).2.2
  unfold Node.closeByPhase
  split
  · obtain ⟨-, hw, -, hl, -⟩ := Release.mk.inj m.completeDeposit_release
    exact .of_shut nofun (fun law => hl.trans (hoff law)) nofun (.inr (hw.trans hwindow))
  · exact .of_shut nofun hoff nofun (.inr hwindow)
  · exact .of_shut nofun hoff nofun (.inr hwindow)
  all_goals
    exact ⟨fun law => ⟨fun hl => absurd (hoff law) hl, fun hp => absurd (hphase.symm.trans hp) (law.of_ajar h).1,
      fun _ => hclosed⟩, .inr (.inl hwindow)⟩

theorem Node.releases_hatchCloses (n : Node) (reading : Option Int) : n.Releases (n.hatchCloses reading) := by
  unfold Node.hatchCloses
  split
  next hopened =>
    have hajar : n.release.hatch ≠ .closed := by rw [show n.release.hatch = _ from hopened]; nofun
    obtain ⟨hphase, hwindow, -, hlock, hhatch, -⟩ := Release.mk.inj (noticeCheck_release
      (n.withHatch { n.hatch with hatch := .closed, openSince := none, stuck := false }))
    refine .after (Node.releases_closeByPhase hajar hphase hlock hwindow hhatch) ?_ ?_
    · rw [pressTrigger_release, trySounding_release, resumePress_release]
    · rw [pressTrigger_tablePart, trySounding_tablePart, resumePress_tablePart]
  · exact .of_same rfl

/-- A lift ends a window or a deferred release, and leaves no other phase at rest (R49). -/
theorem Node.releases_liftByPhase (n : Node) : n.Releases n.liftByPhase := by
  have hoff : n.hatch.phase ≠ .window → n.release.Lawful → n.hatch.lock = .off := fun hp law => law.off hp
  unfold Node.liftByPhase
  split
  · exact Node.releases_endRelease
  · exact Node.releases_endRelease_show _ _
  next hp =>
    obtain ⟨-, hw, -, hl, -⟩ := Release.mk.inj n.completeDeposit_release
    exact .of_shut nofun (fun law => hl.trans (hoff (by rw [hp]; nofun) law)) nofun (.inr hw)
  next hp => exact .of_shut nofun (hoff (by rw [hp]; nofun)) nofun (.inr rfl)
  · exact .of_same rfl
  · exact .of_same rfl

theorem Node.releases_lifts (n : Node) : n.Releases n.lifts := by
  unfold Node.lifts
  split
  · refine .after ((Node.releases_liftByPhase _).before (withHatch_release (x := { n.hatch with lift := .lifted })
      rfl rfl rfl rfl rfl)) ?_ ?_
    · rw [pressTrigger_release, interruptPress_release, liftCall_release, liftFill_release]
    · rw [pressTrigger_tablePart, interruptPress_tablePart, liftCall_tablePart, liftFill_tablePart]
  · exact .of_same rfl

/-! ### The press leaves home and reaches it (R59, R118, R121) -/

/-- A press that leaves home while nothing goes on at the hatch takes no window with it. -/
theorem Node.releases_startForward {n : Node} (h : n.hatchQuiet = true) : n.Releases n.startForward := by
  have hidle := (n.hatchQuiet_iff.mp h).1
  have hleaves : n.Releases (n.withPress (n.press.beginForward n.now)) :=
    .of_shut (by rw [withPress_hatch, hidle]; nofun) (fun law => law.off (by rw [show n.release.phase = _ from hidle]; nofun))
      (fun law hd => law.deferred hd) (.inr rfl)
  unfold Node.startForward
  dsimp only
  split
  · exact hleaves.after (abandonSounding_release _) (abandonSounding_tablePart _)
  · exact hleaves

/-- A claim that has been released left the press unit CLAIMING. -/
theorem Node.releaseClaim_state (n : Node) : n.releaseClaim.press.state = n.press.state :=
  (congrArg Press.state (n.sameButOffers_offerOnly .pressUnit
    (n.telegram .pressRelease toAll [BitVec.ofNat 8 n.control.settings.island])).press :)

theorem Node.releaseClaim_home_release {n : Node} (h : n.press.state = .claiming) {p : Press}
    (hp : p.state = .home ∨ p.state = .inhibited) : (n.releaseClaim.withPress p).release = n.release := by
  rw [Node.withPress_release_home (.inr (.inl (n.releaseClaim_state.trans h))) (hp.imp_right .inr), releaseClaim_release]

theorem Node.releases_judgeClaim {n : Node} (h : n.press.state = .claiming) (supplyLow : Bool) :
    n.Releases (n.judgeClaim supplyLow) := by
  have hgrant : n.Releases (n.grantClaim supplyLow) := by
    unfold Node.grantClaim
    split
    · exact .of_same (Node.releaseClaim_home_release h (.inl rfl))
    split
    · exact .of_same (Node.releaseClaim_home_release h (.inr rfl))
    next hquiet _ => exact Node.releases_startForward (by simpa using hquiet)
  unfold Node.judgeClaim
  split
  · exact hgrant
  · exact .of_same ((startRetry_release _).trans (Node.releaseClaim_home_release h (.inl rfl)))

theorem Node.releases_claimSent (n : Node) (supplyLow : Bool) : n.Releases (n.claimSent supplyLow) := by
  unfold Node.claimSent
  split
  next h => exact (Node.releases_judgeClaim (by exact h) supplyLow).before (withPress_release rfl rfl)
  · exact .of_same rfl

theorem Node.releases_tellSent (n : Node) (e : QueueEntry) (supplyLow : Bool) : n.Releases (n.tellSent e supplyLow) := by
  unfold Node.tellSent
  split
  · split
    · exact n.releases_claimSent supplyLow
    · exact .of_same rfl
  all_goals exact .of_same (by simp)

theorem Node.releases_sent (n : Node) (supplyLow : Bool) : n.Releases (n.sent supplyLow) := by
  unfold Node.sent
  split
  · exact (Node.releases_tellSent _ _ supplyLow).before (by simp)
  · exact .of_same rfl

/-- With the press at home a deferred release becomes a window, or ends for a revoked card (R59). -/
theorem Node.releases_deferredToWindow {n : Node} (hhome : n.pressHome = true) : n.Releases n.deferredToWindow := by
  unfold Node.deferredToWindow
  split
  next hdeferred =>
    split
    · exact .of_same rfl
    next a ha =>
      split
      · exact Node.releases_endRelease_show _ _
      next hrevoked =>
        exact Node.releases_openWindow n.now ha (by simpa using hrevoked) fun law => ⟨law.deferred hdeferred, hhome⟩
  · exact .of_same rfl

/-- A press that comes to read at home takes no window away. -/
theorem Node.releases_withPress {n : Node} {p : Press} (h : n.pressHome = true → (n.withPress p).pressHome = true) :
    n.Releases (n.withPress p) :=
  ⟨fun law => ⟨law.driven, fun hw => ⟨(law.window hw).1, h (law.window hw).2.1, (law.window hw).2.2⟩, law.deferred⟩,
    .inr (.inl rfl)⟩

theorem Node.Releases.trans {n m k : Node} (h : n.Releases m) (h' : m.Releases k)
    (hw : m.hatch.window = n.hatch.window) : n.Releases k :=
  ⟨h'.lawful ∘ h.lawful, by rw [← hw]; exact h'.window⟩

theorem Node.releases_reachHome (n : Node) (reading : Option Int) : n.Releases (n.reachHome reading) := by
  have hhome : (n.withPress (n.press.atHome n.now)).pressHome = true := by
    unfold Node.pressHome
    split <;> rfl
  have harrives : ∀ m : Node, m.release = (n.withPress (n.press.atHome n.now)).release →
      n.Releases m.deferredToWindow := fun m hm => by
    refine .trans (m := m) ?_ (Node.releases_deferredToWindow ((congrArg Release.home hm).trans hhome))
      (congrArg Release.window hm)
    exact ⟨fun law => hm ▸ (Node.releases_withPress fun _ => hhome).lawful law, .inr (.inl (congrArg Release.window hm))⟩
  have hgoesOn : ∀ m : Node, n.Releases m → n.Releases (m.trySounding reading).pressTrigger := fun m h =>
    h.after (by rw [pressTrigger_release, trySounding_release]) (by rw [pressTrigger_tablePart, trySounding_tablePart])
  unfold Node.reachHome
  refine hgoesOn _ (harrives _ ?_)
  rw [backInService_release]
  split
  · rw [endCycle_release, noticeCheck_release]
  · rw [noticeCheck_release]

/-- In STOPPED the home switch decides whether the press reads at home, and in no other state (R111, R128). -/
theorem Press.atRest_homeSwitch {p : Press} {switch : SwitchState} (h : p.atRest = true)
    (hs : p.state = .stopped → p.homeSwitch = .active → switch = .active) :
    ({ p with homeSwitch := switch } : Press).atRest = true := by
  unfold Press.atRest at h ⊢
  cases hstate : p.state <;> simp_all

/-- A home switch that keeps a press in STOPPED at home takes no window away. -/
theorem Node.releases_homeSwitch {n : Node} {switch : SwitchState}
    (hs : n.press.state = .stopped → n.press.homeSwitch = .active → switch = .active) :
    n.Releases (n.withPress { n.press with homeSwitch := switch }) :=
  Node.releases_withPress fun h => by
    rw [Node.pressHome_eq, Bool.or_eq_true] at h ⊢
    exact h.imp_right fun hrest => Press.atRest_homeSwitch hrest hs

theorem Node.releases_homeActive (n : Node) (reading : Option Int) : n.Releases (n.homeActive reading) := by
  have hactive : n.Releases (n.withPress { n.press with homeSwitch := .active }) :=
    Node.releases_homeSwitch fun _ _ => rfl
  unfold Node.homeActive
  dsimp only
  split
  · exact hactive.trans (Node.releases_reachHome _ reading) rfl
  · exact hactive

theorem Node.releases_homeSettles (n : Node) (isActive : Bool) (reading : Option Int) :
    n.Releases (n.homeSettles isActive reading) := by
  unfold Node.homeSettles
  split
  next hunsettled =>
    have hsettled : ∀ switch, n.Releases (n.withPress { n.press with homeSwitch := switch }) := fun _ =>
      Node.releases_homeSwitch fun _ hactive => nomatch hunsettled.symm.trans hactive
    generalize (if isActive then SwitchState.active else .inactive) = switch
    dsimp only
    split
    · exact hsettled switch
    split
    · exact (hsettled switch).trans (Node.releases_reachHome _ reading) rfl
    split
    · exact (hsettled switch).after (driveHoming_release _) (driveHoming_tablePart _)
    · exact hsettled switch
  · exact .of_same rfl

/-- In SAFE a window ends as the press ceases to read at home (R57, R128). -/
theorem Node.releases_homeChanges (n : Node) (isActive : Bool) : n.Releases (n.homeChanges isActive) := by
  unfold Node.homeChanges
  split
  · exact .of_same rfl
  generalize hs : (if isActive then SwitchState.active else .inactive) = switch
  dsimp only
  split
  · exact .of_ended (g := n.hatch) rfl
  next hstays =>
    by_cases hwindow : n.hatch.phase = .window
    · refine Node.releases_homeSwitch fun hstopped _ => ?_
      have hisActive : isActive = true := by
        by_contra hinactive
        exact hstays ⟨hstopped, by simpa using hinactive, hwindow⟩
      rw [← hs, if_pos hisActive]
    · exact .of_shut hwindow (fun law => law.off hwindow) (fun law => law.deferred) (.inr rfl)

/-! ### The other units -/

section
variable {n m : Node} {index : Nat} {op : CardOp}

theorem Node.updateLeaves_release (n : Node) : n.updateLeaves.release = n.release := by
  unfold Node.updateLeaves
  (repeat' split) <;> simp

theorem Node.settleUpdate_release (n : Node) (u : CardUpdate) : (n.settleUpdate u).release = n.release := by
  obtain ⟨update, hsame⟩ := n.settleUpdate_same u
  exact hsame.release.trans (withCards_release n _)

theorem Node.updateFault_release (n : Node) (index : Nat) (card : CardNumber) (reason : FaultReason) :
    (n.updateFault index card reason).release = n.release := n.offerOnly_release _ _

/-- Working an operation leaves the release when the operation does. -/
theorem Node.workOp_release (n : Node) {f : Node → Nat → CardOp → Option Node}
    (hf : ∀ {n m : Node} {index : Nat} {op : CardOp}, f n index op = some m → m.release = n.release) :
    (n.workOp f).release = n.release := by
  rcases n.workOp_cases f with h | ⟨index, op, m, u, hm, h⟩ <;> rw [h]
  exact (m.settleUpdate_release u).trans (hf hm)

theorem Node.workAdd_release (h : n.workAdd index op = some m) : m.release = n.release := by
  unfold Node.workAdd at h
  split at h
  · (repeat' split at h) <;> obtain rfl := Option.some.inj h
    · exact n.updateFault_release _ _ _
    · exact n.updateFault_release _ _ _
    · rfl
  · cases h

theorem Node.workRemove_release (h : n.workRemove index op = some m) : m.release = n.release := by
  unfold Node.workRemove at h
  split at h
  · split at h <;> obtain rfl := Option.some.inj h <;> rfl
  · cases h

theorem Node.workRevokeAdd_release (h : n.workRevokeAdd index op = some m) : m.release = n.release := by
  unfold Node.workRevokeAdd at h
  split at h
  · (repeat' split at h) <;> obtain rfl := Option.some.inj h
    · rfl
    · exact n.updateFault_release _ _ _
    · rfl
  · cases h

theorem Node.workRevokeRemove_release (h : n.workRevokeRemove index op = some m) : m.release = n.release := by
  unfold Node.workRevokeRemove at h
  split at h
  · split at h <;> obtain rfl := Option.some.inj h <;> rfl
  · cases h

end

theorem Node.takeUpdate_release (n : Node) : n.takeUpdate.release = n.release := by
  unfold Node.takeUpdate
  split
  · exact n.settleUpdate_release _
  · rfl

theorem Node.workClear_release (n : Node) (op : CardOp) (phase : TablePhase) : (n.workClear op phase).release = n.release := by
  rcases n.workClear_cases op phase with h | ⟨-, rest, h⟩ <;> rw [h]
  exact n.updateLeaves_release

theorem Node.clearRow_release (n : Node) : n.clearRow.release = n.release := by
  unfold Node.clearRow
  (repeat' split) <;> simp

theorem Node.resumeHeld_release (n : Node) : n.resumeHeld.release = n.release := by
  unfold Node.resumeHeld
  split
  · rfl
  · exact n.settleUpdate_release _

theorem Node.clearProgrammed_release (n : Node) (w : RowWrite) : (n.clearProgrammed w).release = n.release := by
  rcases n.clearProgrammed_cases w with h | ⟨-, h⟩ | ⟨-, h⟩ <;> rw [h]
  · exact Node.resumeHeld_release _
  · exact Node.resumeHeld_release _

theorem Node.programEnds_release (n : Node) : n.programEnds.release = n.release := by
  unfold Node.programEnds
  (repeat' split) <;> simp [Node.clearProgrammed_release]

theorem ite_release {n m : Node} {c : Prop} [Decidable c] (h : m.release = n.release) :
    (if c then m else n).release = n.release := by
  split
  · exact h
  · rfl

theorem Node.takingClaim_release (n : Node) {kind : Kind} {f : Node → Received → Node}
    (hf : ∀ n r, (f n r).release = n.release) : (n.takingClaim kind f).release = n.release :=
  n.taking_release kind fun m r => ite_release (hf m r)

theorem Node.atSlot_release (n : Node) {f : Node → Flight → PingSlot → Node}
    (hf : ∀ n fl sl, (f n fl sl).release = n.release) : (n.atSlot f).release = n.release := by
  unfold Node.atSlot
  (repeat' split) <;> simp [hf]

theorem Node.depotChars_release (n : Node) (chars : List HeardChar) : (n.depotChars chars).release = n.release :=
  (foldl_release Node.depotChar_release chars n.dropStaleFrame).trans n.dropStaleFrame_release

/-! ### Every command -/

/-- What the outcome of a command makes of the release. -/
structure Node.KeepsRelease (n m : Node) : Prop where
  law    : n.ReleaseLaw → m.ReleaseLaw
  window : m.hatch.window = none ∨ m.hatch.window = n.hatch.window ∨
    ∃ a, m.hatch.acceptance = some a ∧ m.cards.isRevoked a.card = false

theorem Node.KeepsRelease.of_start {n m : Node} (h : m.hatch = .start) : n.KeepsRelease m := by
  have hlaw : m.ReleaseLaw :=
    ⟨fun hlock => absurd (congrArg Hatch.lock h) hlock, fun hp => (nomatch (congrArg Hatch.phase h).symm.trans hp),
      fun hp => (nomatch (congrArg Hatch.phase h).symm.trans hp), fun _ => (congrArg Hatch.phase h :)⟩
  exact ⟨fun _ => hlaw, .inl (congrArg Hatch.window h)⟩

/-- While the configuration is read no unit acts, so a unit that leaves the read over leaves the release law's last part. -/
theorem Node.Releases.keepsRelease {n m : Node} (h : n.Releases m) (hlive : n.live = true)
    (hp : m.control.phase = n.control.phase) : n.KeepsRelease m := by
  have hphase : n.control.phase ≠ .reading := by simp_all [Node.live]
  exact ⟨fun law => (Node.releaseLaw_iff m).mpr ⟨h.lawful (n.releaseLaw_iff.mp law).1,
    fun hreading => absurd (hp.symm.trans hreading) hphase⟩, h.window⟩

theorem Node.KeepsRelease.refl (n : Node) : n.KeepsRelease n := ⟨id, .inr (.inl rfl)⟩

/-- The release after a command is as the law and R51 ask. -/
def State.ReleaseKeptBy (s : State) (o : Host.Outcome State Fault Refusal) : Prop :=
  ∀ s', o = .next s' → s.node.KeepsRelease s'.node

section
variable {s : State} {dt : Nat} {f : Node → Node}

theorem releases_perform (hf : ∀ n : Node, n.KeepsRelease (f n)) : s.ReleaseKeptBy (s.perform dt f) := by
  rintro s' h
  rw [State.perform_next.mp h]
  exact ⟨fun ⟨driven, window, deferred, reading⟩ => (hf _).law ⟨driven, window, deferred, reading⟩, (hf _).window⟩

theorem releases_live_keeps (hf : ∀ n : Node, n.live = true → n.KeepsRelease (f n)) :
    s.ReleaseKeptBy (s.perform dt (fun n => n.whenLive f)) :=
  releases_perform fun n => by
    unfold Node.whenLive
    split
    next hlive => exact hf n hlive
    · exact .refl n

theorem releases_live (hf : ∀ n : Node, n.Releases (f n)) (ht : ∀ n, (f n).tablePart = n.tablePart) :
    s.ReleaseKeptBy (s.perform dt (fun n => n.whenLive f)) :=
  releases_live_keeps fun n hlive => (hf n).keepsRelease hlive (congrArg Prod.snd (ht n))

/-- A command of a station's unit; the card table may be any that keeps the table's law. -/
theorem releases_table (hf : ∀ n : Node, n.Releases (f n)) (ht : ∀ n : Node, n.KeepsTable (f n)) :
    s.ReleaseKeptBy (s.perform dt (fun n => n.whenStation f)) :=
  releases_perform fun n => by
    unfold Node.whenStation
    split
    next hacts => exact (hf n).keepsRelease (by simp_all) (ht n).phase
    · exact .refl n

theorem releases_station (hf : ∀ n : Node, n.Releases (f n)) (ht : ∀ n, (f n).tablePart = n.tablePart) :
    s.ReleaseKeptBy (s.perform dt (fun n => n.whenStation f)) :=
  releases_table hf fun n => .of_tablePart (ht n)

theorem releases_press (hf : ∀ n : Node, n.Releases (f n)) (ht : ∀ n, (f n).tablePart = n.tablePart) :
    s.ReleaseKeptBy (s.perform dt (fun n => n.whenPress f)) :=
  releases_station (fun n => by split; exacts [hf n, .of_same rfl]) fun n => ite_tablePart (ht n)

theorem releases_relay (hf : ∀ n, (f n).release = n.release) (ht : ∀ n, (f n).tablePart = n.tablePart) :
    s.ReleaseKeptBy (s.perform dt (fun n => n.whenRelay f)) :=
  releases_perform fun n => by
    unfold Node.whenRelay
    split
    next hacts => exact (Node.Releases.of_same (hf n)).keepsRelease (by simp_all) (congrArg Prod.snd (ht n))
    · exact .refl n

theorem same_live (hf : ∀ n, (f n).release = n.release) (ht : ∀ n, (f n).tablePart = n.tablePart) :
    s.ReleaseKeptBy (s.perform dt (fun n => n.whenLive f)) := releases_live (fun n => .of_same (hf n)) ht

theorem same_station (hf : ∀ n, (f n).release = n.release) (ht : ∀ n, (f n).tablePart = n.tablePart) :
    s.ReleaseKeptBy (s.perform dt (fun n => n.whenStation f)) := releases_station (fun n => .of_same (hf n)) ht

theorem same_table (hf : ∀ n, (f n).release = n.release) (ht : ∀ n : Node, n.KeepsTable (f n)) :
    s.ReleaseKeptBy (s.perform dt (fun n => n.whenStation f)) := releases_table (fun n => .of_same (hf n)) ht

theorem same_press (hf : ∀ n, (f n).release = n.release) (ht : ∀ n, (f n).tablePart = n.tablePart) :
    s.ReleaseKeptBy (s.perform dt (fun n => n.whenPress f)) := releases_press (fun n => .of_same (hf n)) ht

end

theorem Node.keepsRelease_holdReset (n : Node) : n.KeepsRelease n.holdReset := by
  unfold Node.holdReset
  dsimp only
  split
  · exact .of_start rfl
  · exact ⟨fun ⟨driven, window, deferred, reading⟩ => ⟨driven, window, deferred, reading⟩, .inr (.inl rfl)⟩

theorem Node.keepsRelease_releaseReset (n : Node) : n.KeepsRelease n.releaseReset := by
  unfold Node.releaseReset
  dsimp only
  split
  · exact .of_start rfl
  · exact ⟨fun ⟨driven, window, deferred, reading⟩ => ⟨driven, window, deferred, reading⟩, .inr (.inl rfl)⟩

theorem Node.keepsRelease_restart (n : Node) : n.KeepsRelease (n.taking .restart (fun n _ => n.startUnits .telegram)) := by
  rcases n.taking_cases .restart (fun n _ => n.startUnits .telegram) with h | ⟨r, -, -, h⟩ <;> rw [h]
  · exact .refl n
  · exact .of_start rfl

/-- A configuration, good or failed, leaves the hatch phase, the window and the lock drive of the start (R185, R187). -/
theorem Node.configurationRead_hatch (n : Node) (block : List Byte) : n.configurationRead block = n ∨
    n.control.phase = .reading ∧ (n.configurationRead block).control.phase ≠ .reading ∧
      (n.configurationRead block).hatch.phase = n.hatch.phase ∧ (n.configurationRead block).hatch.window = n.hatch.window ∧
      (n.configurationRead block).hatch.lock = n.hatch.lock := by
  have hconfigured : ∀ settings clamped, (n.configured settings clamped).hatch.phase = n.hatch.phase ∧
      (n.configured settings clamped).hatch.window = n.hatch.window ∧
      (n.configured settings clamped).hatch.lock = n.hatch.lock := fun settings clamped => by
    unfold Node.configured
    dsimp only
    split
    · obtain ⟨hphase, hwindow, -, hlock, -⟩ := Release.mk.inj (evaluateStart_release _)
      exact ⟨hphase, hwindow, hlock⟩
    · exact ⟨rfl, rfl, rfl⟩
  have hover : n.configurationRead block = n ∨ (n.configurationRead block).control.phase ≠ .reading :=
    (n.configurationRead_table block).imp_right And.right
  rcases hover with hsame | hover
  · exact .inl hsame
  unfold Node.configurationRead at hover ⊢
  split
  next hreads =>
    rw [if_pos hreads] at hover
    refine .inr ⟨hreads.2.2, hover, ?_⟩
    split
    · exact hconfigured _ _
    · exact ⟨rfl, rfl, rfl⟩
  · exact .inl rfl

theorem Node.keepsRelease_configurationRead (n : Node) (block : List Byte) : n.KeepsRelease (n.configurationRead block) := by
  rcases n.configurationRead_hatch block with h | ⟨hreading, hover, hphase, hwindow, hlock⟩
  · rw [h]
    exact .refl n
  refine ⟨fun law => ?_, .inr (.inl hwindow)⟩
  have hidle := hphase.trans (law.reading hreading)
  have hoff : n.hatch.lock = .off :=
    (n.releaseLaw_iff.mp law).1.off (by rw [show n.release.phase = _ from law.reading hreading]; nofun)
  exact ⟨fun hdriven => absurd (hlock.trans hoff) hdriven, fun hp => (nomatch hidle.symm.trans hp),
    fun hp => (nomatch hidle.symm.trans hp), fun h => absurd h hover⟩

/-- What each command makes of the release. -/
theorem exec_keepsRelease (i : Instr) (s : State) : s.ReleaseKeptBy (exec i s) := by
  cases i with
  | powerOn _ => exact releases_perform fun _ => .of_start rfl
  | resetPin _ => exact releases_perform Node.keepsRelease_releaseReset
  | restart _ => exact releases_live_keeps fun n _ => n.keepsRelease_restart
  | configurationRead _ block =>
    exact releases_perform (f := (Node.configurationRead · block)) (Node.keepsRelease_configurationRead · block)
  | soundingDue _ reading =>
    exact same_station (fun n => n.soundingDue_release reading) (fun n => n.soundingDue_tablePart reading)
  | pingSlotStart _ => exact same_station (fun n => by split <;> simp) (fun n => by split <;> simp)
  | burstEnd _ =>
    exact same_station (fun n => n.atSlot_release Node.burstEnd_release) (fun n => n.atSlot_tablePart Node.burstEnd_tablePart)
  | blankingEnd _ =>
    exact same_station (fun n => n.atSlot_release Node.blankingEnd_release)
      (fun n => n.atSlot_tablePart Node.blankingEnd_tablePart)
  | echoEdge _ =>
    exact same_station (fun n => n.atSlot_release Node.echoEdge_release) (fun n => n.atSlot_tablePart Node.echoEdge_tablePart)
  | pingWindowEnd _ =>
    exact same_station (fun n => n.atSlot_release Node.windowEnd_release) (fun n => n.atSlot_tablePart Node.windowEnd_tablePart)
  | soundingEnd _ => exact same_station Node.soundingEnd_release Node.soundingEnd_tablePart
  | periodicTimerExpiry _ => exact same_station Node.periodicExpiry_release Node.periodicExpiry_tablePart
  | cardRead _ card => exact releases_station (fun n => n.releases_cardRead card) (fun n => n.cardRead_tablePart card)
  | readError _ => exact same_station (fun n => by split <;> rfl) (fun n => by split <;> simp)
  | windowExpiry _ => exact releases_station Node.releases_windowExpiry Node.windowExpiry_tablePart
  | lockPullInEnd _ => exact releases_station Node.releases_pullInEnd Node.pullInEnd_tablePart
  | deferredReleaseExpiry _ => exact releases_station Node.releases_deferredExpiry Node.deferredExpiry_tablePart
  | servicePeriodExpiry _ => exact same_station Node.serviceExpiry_release Node.serviceExpiry_tablePart
  | indicationExpiry _ => exact same_station Node.indicationExpiry_release Node.indicationExpiry_tablePart
  | buzzerToneEnd _ => exact same_station Node.toneEnd_release Node.toneEnd_tablePart
  | hatchSettled _ isOpen reading =>
    exact releases_station (fun n => n.releases_hatchSettles isOpen reading) (fun n => n.hatchSettles_tablePart isOpen reading)
  | hatchOpen _ => exact releases_station Node.releases_hatchOpens Node.hatchOpens_tablePart
  | hatchClosed _ reading =>
    exact releases_station (fun n => n.releases_hatchCloses reading) (fun n => n.hatchCloses_tablePart reading)
  | hatchStuck _ => exact same_station Node.hatchSticks_release Node.hatchSticks_tablePart
  | liftSettled _ isLifted reading =>
    exact same_station (fun n => n.liftSettles_release isLifted reading) (fun n => n.liftSettles_tablePart isLifted reading)
  | lift _ => exact releases_station Node.releases_lifts Node.lifts_tablePart
  | seat _ reading => exact same_station (fun n => n.seats_release reading) (fun n => n.seats_tablePart reading)
  | cardUpdate _ => exact same_table Node.takeUpdate_release Node.takeUpdate_keepsTable
  | add _ =>
    exact same_table (fun n => n.workOp_release Node.workAdd_release) (fun n => n.workOp_keepsTable Node.workAdd_keepsTable)
  | remove _ =>
    exact same_table (fun n => n.workOp_release Node.workRemove_release)
      (fun n => n.workOp_keepsTable Node.workRemove_keepsTable)
  | clear _ =>
    exact same_table (fun n => n.workClear_release .clear .clearing) (fun n => n.workClear_keepsTable .clear .clearing)
  | revokeAdd _ =>
    exact same_table (fun n => n.workOp_release Node.workRevokeAdd_release)
      (fun n => n.workOp_keepsTable Node.workRevokeAdd_keepsTable)
  | revokeRemove _ =>
    exact same_table (fun n => n.workOp_release Node.workRevokeRemove_release)
      (fun n => n.workOp_keepsTable Node.workRevokeRemove_keepsTable)
  | revokeClear _ =>
    exact same_table (fun n => n.workClear_release .revokeClear .revokeClearing)
      (fun n => n.workClear_keepsTable .revokeClear .revokeClearing)
  | clearRowWrite _ => exact same_table Node.clearRow_release Node.clearRow_keepsTable
  | cardTableScanEnd _ => exact releases_table Node.releases_cardScanEnd Node.cardScanEnd_keepsTable
  | rowProgramEnd _ => exact same_table Node.programEnds_release Node.programEnds_keepsTable
  | recordAppend _ => exact same_station Node.appendOldest_release Node.appendOldest_tablePart
  | accountingWrite _ => exact same_station Node.writeAccounting_release Node.writeAccounting_tablePart
  | confirmMarkWrite _ => exact same_station Node.writeMark_release Node.writeMark_tablePart
  | logScanEnd _ => exact same_station Node.logScanEnd_release Node.logScanEnd_tablePart
  | harvestRequest _ =>
    exact same_station (fun n => ite_release (n.taking_release .harvestRequest fun n _ => n.fixHarvest_release _ _ _))
      (fun n => ite_tablePart (n.taking_tablePart .harvestRequest fun n _ => n.fixHarvest_tablePart _ _ _))
  | harvestAnswer _ => exact same_station (fun n => n.offerClass3_release .harvest) (fun n => n.offerClass3_tablePart .harvest)
  | harvestConfirm _ =>
    exact same_station (fun n => ite_release (n.taking_release .harvestConfirm fun n _ => n.confirm_release _))
      (fun n => ite_tablePart (n.taking_tablePart .harvestConfirm fun n _ => n.confirm_tablePart _))
  | tallyNotice _ =>
    exact same_station (fun n => ite_release (n.taking_release .tallyNotice Node.hearTally_release))
      (fun n => ite_tablePart (n.taking_tablePart .tallyNotice Node.hearTally_tablePart))
  | clockSecond _ => exact same_station Node.clockSecond_release Node.clockSecond_tablePart
  | time _ =>
    exact same_live (fun n => ite_release (n.taking_release .time Node.hearTime_release))
      (fun n => ite_tablePart (n.taking_tablePart .time Node.hearTime_tablePart))
  | pressClaim _ =>
    exact same_station (fun n => n.takingClaim_release fun _ _ => rfl) (fun n => n.takingClaim_tablePart fun _ _ => rfl)
  | pressRelease _ =>
    exact same_station (fun n => n.takingClaim_release fun _ _ => rfl) (fun n => n.takingClaim_tablePart fun _ _ => rfl)
  | claimEntryExpiry _ => exact same_press Node.claimExpiry_release Node.claimExpiry_tablePart
  | retryTimerExpiry _ => exact same_press Node.retryExpiry_release Node.retryExpiry_tablePart
  | inhibitTimerExpiry _ => exact same_press Node.inhibitExpiry_release Node.inhibitExpiry_tablePart
  | softStartStep _ => exact same_press Node.softStep_release Node.softStep_tablePart
  | loadTrip _ => exact same_press Node.loadTrip_release Node.loadTrip_tablePart
  | endSwitchActive event =>
    exact same_press (fun n => n.endSwitch_release event.isActive) (fun n => n.endSwitch_tablePart event.isActive)
  | forwardTimeLimit _ => exact same_press Node.forwardLimitReached_release Node.forwardLimitReached_tablePart
  | dwellEnd _ => exact same_press Node.dwellEnd_release Node.dwellEnd_tablePart
  | homeSwitchActive _ reading =>
    exact releases_press (fun n => n.releases_homeActive reading) (fun n => n.homeActive_tablePart reading)
  | reverseTimeLimit _ => exact same_press Node.reverseLimitReached_release Node.reverseLimitReached_tablePart
  | homingDriveStart _ => exact same_press Node.homingStart_release Node.homingStart_tablePart
  | homeSwitchSettled _ isActive reading =>
    exact releases_press (fun n => n.releases_homeSettles isActive reading) (fun n => n.homeSettles_tablePart isActive reading)
  | lineIdle _ => exact same_live Node.lineIdle_release Node.lineIdle_tablePart
  | deferWaitEnd _ => exact same_live Node.deferEnd_release Node.deferEnd_tablePart
  | collision _ => exact same_live Node.collide_release Node.collide_tablePart
  | transmissionSent _ supplyLow =>
    exact releases_live (fun n => n.releases_sent supplyLow) (fun n => n.sent_tablePart supplyLow)
  | receptionEnd _ normal inverted =>
    exact same_live (fun n => n.receptionEnds_release normal inverted) (fun n => n.receptionEnds_tablePart normal inverted)
  | silenceTimerExpiry _ => exact same_live Node.silenceExpiry_release Node.silenceExpiry_tablePart
  | correctionTimerExpiry _ => exact same_live Node.correctionExpiry_release Node.correctionExpiry_tablePart
  | noticeTimerExpiry _ => exact same_station Node.noticeExpiry_release Node.noticeExpiry_tablePart
  | fillNotice _ =>
    exact same_station (fun n => n.taking_release .fillNotice Node.hearNotice_release)
      (fun n => n.taking_tablePart .fillNotice Node.hearNotice_tablePart)
  | viewEntryExpiry _ => exact same_station Node.viewExpiry_release Node.viewExpiry_tablePart
  | redirectNotice _ =>
    exact same_station (fun n => n.taking_release .redirectNotice Node.hearRedirect_release)
      (fun n => n.taking_tablePart .redirectNotice Node.hearRedirect_tablePart)
  | expectEntryExpiry _ => exact same_station Node.expectExpiry_release Node.expectExpiry_tablePart
  | resendTimerExpiry _ => exact same_station Node.resendExpiry_release Node.resendExpiry_tablePart
  | lapseRestExpiry _ => exact same_station Node.lapseExpiry_release Node.lapseExpiry_tablePart
  | holdOffExpiry _ => exact same_station Node.holdOffExpiry_release Node.holdOffExpiry_tablePart
  | callAnswer _ =>
    exact same_station (fun n => n.taking_release .callAnswer fun n _ => n.hearAnswer_release _)
      (fun n => n.taking_tablePart .callAnswer fun n _ => n.hearAnswer_tablePart _)
  | call _ =>
    exact same_station (fun n => n.taking_release .call Node.hearCall_release)
      (fun n => n.taking_tablePart .call Node.hearCall_tablePart)
  | callJoin _ =>
    exact same_station (fun n => n.taking_release .callJoin Node.hearJoin_release)
      (fun n => n.taking_tablePart .callJoin Node.hearJoin_tablePart)
  | depotFrame _ chars => exact releases_relay (fun n => n.depotChars_release chars) (fun n => n.depotChars_tablePart chars)
  | depotFrameTimeout _ => exact releases_relay Node.frameTimeout_release Node.frameTimeout_tablePart
  | depotToLineOffer _ => exact releases_relay Node.offerFromDepot_release Node.offerFromDepot_tablePart
  | depotFrameSend _ cts => exact releases_relay (fun n => n.beginFrame_release cts) (fun n => n.beginFrame_tablePart cts)
  | depotFrameEnd _ => exact releases_relay Node.endFrame_release Node.endFrame_tablePart
  | answerTimerExpiry _ => exact releases_relay Node.answerExpiry_release Node.answerExpiry_tablePart
  | relayClockSecond _ => exact releases_relay (fun _ => rfl) (fun _ => rfl)
  | originationTimerExpiry _ => exact releases_relay Node.originate_release Node.originate_tablePart
  | statusRequest _ =>
    exact same_live (fun n => n.taking_release .statusRequest Node.hearStatusRequest_release)
      (fun n => n.taking_tablePart .statusRequest Node.hearStatusRequest_tablePart)
  | statusAnswer _ => exact same_station (fun n => n.offerClass3_release .status) (fun n => n.offerClass3_tablePart .status)
  | resetPinHeld _ => exact releases_perform Node.keepsRelease_holdReset
  | supplyFails _ => exact releases_perform fun _ => .of_start rfl
  | receptionBegins _ => exact same_live Node.receptionBegins_release Node.receptionBegins_tablePart
  | homeSwitchChange _ isActive =>
    exact releases_press (fun n => n.releases_homeChanges isActive) (fun n => n.homeChanges_tablePart isActive)

end Sys2Proof.Machine

/-- Settles O22: whatever the command, what it makes of the release keeps R51 and R59. -/
theorem noRevokedCardGetsAWindow : Obligations.NoRevokedCardGetsAWindow := by
  intro c s n h hsome hne
  rcases (exec_keepsRelease c s _ h).window with hnone | hsame | hcard
  · exact absurd (congrArg Option.isSome hnone) (by simp [hsome])
  · exact absurd hsame hne
  · exact hcard

/-- Settles O58: the command at the front keeps the release law, whatever it is, and the lock law follows from it. -/
theorem lockLawIsKept : Obligations.LockLawIsKept := by
  refine ⟨fun s s' h => ?_, fun n law => ?_⟩
  · unfold step at h
    split at h
    · obtain rfl := Host.Outcome.next.inj h
      exact id
    next i rest _ => exact (exec_keepsRelease i ⟨s.node, rest⟩ s' h).law
  · have hstands := fun hlock => law.window (law.driven hlock)
    refine ⟨fun hlock => ⟨(hstands hlock).1, (hstands hlock).2.1⟩, fun hout => (hstands fun hoff => hout ?_).2.2⟩
    rw [Node.lockOutput, hoff]
end

section
/-! CARD_READ (R50 to R60): a read that is discarded, a repeat, and what the evaluation of a new one leaves. -/

open Sys2Proof Sys2Proof.Machine

namespace Sys2Proof.Machine

/-! ### The last read (R50) -/

@[simp] theorem Hatch.show_lastRead (h : Hatch) (now : Moment) (i : Indication) : (h.show now i).lastRead = h.lastRead := rfl

@[simp] theorem Hatch.endRelease_lastRead (h : Hatch) : h.endRelease.lastRead = h.lastRead := by
  obtain ⟨p, b, hended⟩ := h.endRelease_spec
  rw [hended]

@[simp] theorem Hatch.showStanding_lastRead (h : Hatch) (now : Moment) : (h.showStanding now).lastRead = h.lastRead := by
  unfold Hatch.showStanding
  split <;> rfl

@[simp] theorem Hatch.openWindow_lastRead (h : Hatch) (now : Moment) : (h.openWindow now).lastRead = h.lastRead := by
  rw [h.openWindow_eq]

@[simp] theorem Hatch.defer_lastRead (h : Hatch) (now : Moment) (a : Acceptance) : (h.defer now a).lastRead = h.lastRead :=
  Hatch.showStanding_lastRead _ _

@[simp] theorem Node.refuseEarly_lastRead (n : Node) (card : CardNumber) (code : Nat) :
    (n.refuseEarly card code).hatch.lastRead = n.hatch.lastRead := by
  unfold Node.refuseEarly
  split <;> simp

@[simp] theorem Node.refuse_lastRead (n : Node) (code : Nat) : (n.refuse code).hatch.lastRead = n.hatch.lastRead := rfl

@[simp] theorem Node.redirectCard_lastRead (n : Node) (card : CardNumber) :
    (n.redirectCard card).hatch.lastRead = n.hatch.lastRead := by
  unfold Node.redirectCard
  split
  · exact (congrArg Hatch.lastRead (Node.sameButOffers_offerOnly _ _ _).hatch :)
  · rfl

@[simp] theorem Node.judgeDeposit_lastRead (n : Node) (r : CardRecord) :
    (n.judgeDeposit r).hatch.lastRead = n.hatch.lastRead := by
  have haccept : ∀ a, (n.acceptCard a).hatch.lastRead = n.hatch.lastRead := fun a => by
    unfold Node.acceptCard
    split <;> simp
  unfold Node.judgeDeposit
  dsimp only
  (repeat' split) <;> simp [haccept]

@[simp] theorem Node.presentAgain_lastRead (n : Node) : n.presentAgain.hatch.lastRead = n.hatch.lastRead := by
  unfold Node.presentAgain
  split <;> simp

@[simp] theorem Node.serviceHandling_lastRead (n : Node) (card : CardNumber) :
    (n.serviceHandling card).hatch.lastRead = n.hatch.lastRead := by
  have hbegun : (n.beginService card).hatch.lastRead = n.hatch.lastRead := 
    (congrArg Hatch.lastRead (n.beginService_talk card).hatch :)
  have hwindow : ((n.beginService card).crewWindow card).hatch.lastRead = (n.beginService card).hatch.lastRead := by
    unfold Node.crewWindow
    (repeat' split) <;> simp
  unfold Node.serviceHandling
  dsimp only
  split
  · rw [(Node.startRecovery_keeps _).1, hwindow, hbegun]
  · rw [hwindow, hbegun]

/-- The evaluation leaves the last read as it is. -/
theorem Node.judgeCard_lastRead (n : Node) (card : CardNumber) : (n.judgeCard card).hatch.lastRead = n.hatch.lastRead := by
  unfold Node.judgeCard
  (repeat' split) <;> simp

/-! ### What becomes of a read (R50) -/

section
variable {n : Node} {card : CardNumber}

/-- The node once a card has been read, before its evaluation. -/
def Node.readBy (n : Node) (card : CardNumber) : Node := n.withHatch { n.hatch with lastRead := some ⟨card, n.now⟩ }

theorem Hatch.isRepeat_iff (h : Hatch) (card : CardNumber) (now : Moment) :
    h.isRepeat card now = true ↔ ∃ t, h.lastRead = some ⟨card, t⟩ ∧ now - t < 2000000 := by
  unfold Hatch.isRepeat
  rcases h.lastRead with _ | ⟨last, t⟩
  · simp
  · simp only [Bool.and_eq_true, beq_iff_eq, decide_eq_true_eq, Option.some.injEq, LastRead.mk.injEq]
    exact ⟨fun ⟨hcard, hsoon⟩ => ⟨t, ⟨hcard, rfl⟩, hsoon⟩,
      fun ⟨_, ⟨hcard, ht⟩, hsoon⟩ => ⟨hcard, ht ▸ hsoon⟩⟩

theorem Node.cardRead_of_waiting (h : n.hatch.evaluating.isSome = true) : n.cardRead card = n := if_pos h

theorem Node.cardRead_of_repeat (h : n.hatch.evaluating = none) (hr : n.hatch.isRepeat card n.now = true) :
    n.cardRead card = n.readBy card := by
  simp [Node.cardRead, h, hr, Node.readBy]

theorem Node.cardRead_of_new (h : n.hatch.evaluating = none) (hr : n.hatch.isRepeat card n.now = false) :
    n.cardRead card = ((n.readBy card).evaluateCard card).pressTrigger := by
  simp [Node.cardRead, h, hr, Node.readBy]

theorem Node.evaluateCard_of_starting (h : n.hatch.station = .starting) : n.evaluateCard card = n.refuseEarly card 91 :=
  if_pos h

theorem Node.evaluateCard_of_scanning (h : n.hatch.station ≠ .starting) (hs : n.cards.phase = .scanning) :
    n.evaluateCard card = n.withHatch { n.hatch with evaluating := some card } := by
  simp [Node.evaluateCard, h, hs]

theorem Node.evaluateCard_of (h : n.hatch.station ≠ .starting) (hs : n.cards.phase ≠ .scanning) :
    n.evaluateCard card = n.judgeCard card := by
  simp [Node.evaluateCard, h, hs]

end

/-- The trigger of a claim leaves the records. -/
theorem Node.pressTrigger_keepsRecords (n : Node) : n.KeepsRecords n.pressTrigger :=
  Node.KeepsRecords.trans (b := n.withPress n.pressTrigger.press) ⟨rfl, rfl, rfl, rfl, rfl, rfl⟩
    n.pressTrigger_same.1.keepsRecords

theorem Node.pressTrigger_hatch (n : Node) : n.pressTrigger.hatch = n.hatch := n.pressTrigger_same.1.hatch

/-- The evaluation leaves the records, whatever the card. -/
theorem Node.evaluateCard_keeps (n : Node) (card : CardNumber) :
    n.KeepsRecords (n.evaluateCard card) ∧ (n.evaluateCard card).hatch.lastRead = n.hatch.lastRead := by
  by_cases hstart : n.hatch.station = .starting
  · rw [Node.evaluateCard_of_starting hstart]
    exact ⟨(n.judgedAside_refuseEarly card 91).keepsRecords, n.refuseEarly_lastRead card 91⟩
  by_cases hscan : n.cards.phase = .scanning
  · rw [Node.evaluateCard_of_scanning hstart hscan]
    exact ⟨n.keepsRecords_withHatch _, rfl⟩
  rw [Node.evaluateCard_of hstart hscan]
  refine ⟨?_, n.judgeCard_lastRead card⟩
  by_cases hcrew : n.cards.IsCrew card
  · rw [Node.judgeCard_of_crew hcrew]
    exact (n.serviceHandling_served card).records
  · exact (Node.judgedAside_judgeCard hcrew).keepsRecords

/-- A read that is new is evaluated, and the trigger after it leaves the hatch controller. -/
theorem execCardRead_of_new {s : State} {dt : Nat} {card : CardNumber} (hacts : s.node.StationActs)
    (he : s.node.hatch.evaluating = none)
    (hnew : ∀ t, s.node.hatch.lastRead = some ⟨card, t⟩ → 2000000 ≤ s.node.now + dt - t) : exec (.cardRead dt card) s =
      .next ⟨(((s.node.advance dt).readBy card).evaluateCard card).pressTrigger, s.pending⟩ := by
  have hr : (s.node.advance dt).hatch.isRepeat card (s.node.advance dt).now = false := by
    rw [Bool.eq_false_iff]
    intro hrepeat
    obtain ⟨t, ht, hsoon⟩ := (Hatch.isRepeat_iff _ _ _).mp hrepeat
    exact absurd hsoon (Nat.not_lt.mpr (hnew t ht))
  rw [← Node.cardRead_of_new (n := s.node.advance dt) he hr]
  exact State.perform_station hacts dt _

/-- The evaluation asks nothing of the node before that the read changes. -/
theorem Node.JudgedFromStep2.of_readBy {n after : Node} {dt : Nat} {card : CardNumber} {cards : Cards} {now : Moment}
    (h : Node.JudgedFromStep2 ((n.advance dt).readBy card) after cards now card) :
    Node.JudgedFromStep2 n after cards now card := h

end Sys2Proof.Machine

/-- Settles O14: a read is discarded, ignored or evaluated, and the evaluation takes the first step whose condition holds. -/
theorem cardEvaluationTakesTheFirstStep : Obligations.CardEvaluationTakesTheFirstStep := by
  intro s dt card hacts
  refine ⟨fun hwaits => ?waits, fun hnone hrepeat => ?repeats, fun hnone hnew => ?evaluated⟩
  case waits =>
    refine (State.perform_station hacts dt _).trans ?_
    rw [Node.cardRead_of_waiting (n := s.node.advance dt) hwaits]
    rfl
  case repeats =>
    refine (State.perform_station hacts dt _).trans ?_
    rw [Node.cardRead_of_repeat (n := s.node.advance dt) hnone ((Hatch.isRepeat_iff _ _ _).mpr hrepeat)]
    rfl
  case evaluated =>
    let n := (s.node.advance dt).readBy card
    have hread : s.node.KeepsRecords n := ⟨rfl, rfl, rfl, rfl, rfl, rfl⟩
    obtain ⟨evaluated, hlast⟩ := n.evaluateCard_keeps card
    have keeps := (hread.trans evaluated).trans (Node.pressTrigger_keepsRecords _)
    have hhatch := (n.evaluateCard card).pressTrigger_hatch
    refine ⟨_, execCardRead_of_new hacts hnone hnew, by rw [hhatch, hlast]; rfl, keeps.cards, keeps.store, keeps.tally,
      keeps.clock, keeps.fill, keeps.log.1, keeps.log.2.1, ?_⟩
    rw [hhatch]
    split
    next hstart => rw [Node.evaluateCard_of_starting (n := n) hstart]; rfl
    next hstart =>
      split
      next hscan => exact congrArg (·.hatch.evaluating) (Node.evaluateCard_of_scanning (n := n) hstart hscan)
      next hscan =>
        have judged := n.judgeCard_judged card
        rw [← Node.evaluateCard_of (n := n) hstart hscan] at judged
        exact (Node.JudgedFromStep2.of_readBy judged).congr (Hatch.sameRelease_of_eq hhatch)
end

section
/-! O15 and O16: the card whose own acceptance is pending (R56), and the crew card (R46, R47, R60, R126). -/

open Sys2Proof Sys2Proof.Machine

namespace Sys2Proof.Machine

/-- The release has ended with a refusal shown until 4 s after `now` (R56, R65). -/
def Node.EndedWith (m : Node) (now : Moment) (code : Nat) : Prop :=
  m.hatch.phase = .idle ∧ m.hatch.window = none ∧ m.hatch.deferred = none ∧ m.hatch.acceptance = none ∧
    m.hatch.lock = .off ∧ m.hatch.panel = some ⟨.refusal code, some (now + 4000000)⟩

/-- A refusal at steps 2 to 7 ends the release of the card refused (R56). -/
theorem Node.refuseEarly_ended {n : Node} {card : CardNumber} (h : n.hatch.ownPending card = true) (code : Nat) :
    (n.refuseEarly card code).EndedWith n.now code := by
  obtain ⟨p, b, hended⟩ := n.hatch.endRelease_spec
  have hrefused : n.refuseEarly card code = n.withHatch (n.hatch.endRelease.show n.now (.refusal code)) := by
    rw [Node.refuseEarly, if_pos h]
  rw [hrefused, hended]
  exact ⟨rfl, rfl, rfl, rfl, rfl, rfl⟩

/-- A deferred release shows its indication anew (R56, R66). -/
theorem Hatch.showStanding_of_deferred {h : Hatch} (hp : h.phase = .deferred) (now : Moment) :
    h.showStanding now = { h with panel := some ⟨.deferred, none⟩, buzzer := Indication.deferred.buzzer now } := by
  unfold Hatch.showStanding Hatch.standing
  rw [hp]

/-- The window restarts, or the deferred release goes on (R56). -/
theorem Node.presentAgain_restarts {n : Node} {card : CardNumber} (h : n.hatch.ownPending card = true) :
    n.presentAgain.hatch.acceptance = n.hatch.acceptance ∧ n.presentAgain.hatch.phase = n.hatch.phase ∧
      if n.hatch.phase = .window then
        n.presentAgain.hatch.window = some (n.now + 10000000) ∧ n.presentAgain.hatch.lock = .pullIn (n.now + 300000)
      else
        n.presentAgain.hatch.deferred = n.hatch.deferred ∧ n.presentAgain.hatch.lock = n.hatch.lock ∧
          n.presentAgain.hatch.panel = some ⟨.deferred, none⟩ := by
  unfold Node.presentAgain
  by_cases hwindow : n.hatch.phase = .window
  · rw [if_pos hwindow, if_pos hwindow, Hatch.openWindow_eq]
    exact ⟨rfl, hwindow.symm, rfl, rfl⟩
  · have hdeferred : n.hatch.phase = .deferred := ((n.hatch.ownPending_iff card).mp h).1.resolve_left hwindow
    rw [if_neg hwindow, if_neg hwindow, Hatch.showStanding_of_deferred hdeferred]
    exact ⟨rfl, rfl, rfl, rfl, rfl⟩

/-- What the evaluation makes of the card whose own acceptance is pending (R56). -/
def Node.PresentedAgain (before after : Node) (now : Moment) (card : CardNumber) : Prop :=
  if before.cards.isRevoked card = true then after.EndedWith now 11
  else
    match before.cards.lookup card with
    | none => after.EndedWith now 12
    | some r =>
      if r.status = .suspended then after.EndedWith now 13
      else if r.cls = .crew then True
      else if before.hatch.station = .safe ∨ before.hatch.station = .outOfService then after.EndedWith now 90
      else if r.rights.getLsbD before.control.settings.fraction.code = false then after.EndedWith now 14
      else
        after.hatch.acceptance = before.hatch.acceptance ∧ after.hatch.phase = before.hatch.phase ∧
        if before.hatch.phase = .window then
          after.hatch.window = some (now + 10000000) ∧ after.hatch.lock = .pullIn (now + 300000)
        else
          after.hatch.deferred = before.hatch.deferred ∧ after.hatch.lock = before.hatch.lock ∧
            after.hatch.panel = some ⟨.deferred, none⟩

theorem Node.judgeCard_presentedAgain {n : Node} {card : CardNumber} (h : n.hatch.ownPending card = true) :
    Node.PresentedAgain n (n.judgeCard card) n.now card := by
  have hended := Node.refuseEarly_ended h
  unfold Node.PresentedAgain
  generalize hm : n.judgeCard card = m
  unfold Node.judgeCard at hm
  by_cases hrevoked : n.cards.isRevoked card = true
  · rw [if_pos hrevoked] at hm ⊢
    exact hm ▸ hended 11
  rw [if_neg hrevoked] at hm ⊢
  cases hr : n.cards.lookup card with
  | none =>
    rw [hr] at hm
    exact hm ▸ hended 12
  | some r =>
    simp only [hr] at hm ⊢
    by_cases hstatus : r.status = .suspended
    · rw [if_pos hstatus] at hm ⊢
      exact hm ▸ hended 13
    rw [if_neg hstatus] at hm ⊢
    by_cases hcls : r.cls = .crew
    · rw [if_pos hcls]
      trivial
    rw [if_neg hcls] at hm ⊢
    by_cases hstation : n.hatch.station = .safe ∨ n.hatch.station = .outOfService
    · rw [if_pos hstation] at hm ⊢
      exact hm ▸ hended 90
    rw [if_neg hstation] at hm ⊢
    by_cases hrights : r.rights.getLsbD n.control.settings.fraction.code = false
    · rw [if_pos hrights] at hm ⊢
      exact hm ▸ hended 14
    rw [if_neg hrights] at hm ⊢
    rw [if_pos h] at hm
    exact hm ▸ Node.presentAgain_restarts h

/-- What the evaluation makes of the card is in the hatch controller, and the read before it changes nothing it asks. -/
theorem Node.PresentedAgain.of_readBy {n after other : Node} {dt : Nat} {card : CardNumber} {now : Moment}
    (h : Node.PresentedAgain ((n.advance dt).readBy card) after now card) (hh : other.hatch = after.hatch) :
    Node.PresentedAgain n other now card := by
  unfold Node.PresentedAgain Node.EndedWith at h ⊢
  rw [hh]
  exact h

/-! ### The recovery toward home (R46, R126) -/

/-- In FAULT a crew card starts a REVERSE of kind RECOVERY (R126). -/
theorem Node.startRecovery_press {n : Node} (h : n.press.state = .fault) :
    n.startRecovery.press.state = .reversing ∧ n.startRecovery.press.kind = .recovery := by
  unfold Node.startRecovery
  rw [if_pos h]
  dsimp only
  rw [Node.abandonSounding_eq, (Node.noticeCheck_talk _).press, Node.withSounding_press, Node.withPress_press]
  split <;> exact ⟨rfl, rfl⟩

/-- A crew card read in OUT OF SERVICE reaches a press in FAULT (R46). -/
theorem Node.serviceHandling_press {n : Node} {card : CardNumber} (hout : n.hatch.station = .outOfService)
    (hfault : n.press.state = .fault) :
    (n.serviceHandling card).press.state = .reversing ∧ (n.serviceHandling card).press.kind = .recovery := by
  have talk := n.beginService_talk card
  obtain ⟨-, g, same, hwindow⟩ := (n.beginService card).crewWindow_given card
  have hstation : ((n.beginService card).crewWindow card).hatch.station = .outOfService := by
    rw [hwindow, Node.withHatch_hatch, same.station, talk.hatch, Node.withHatch_hatch, Hatch.serving, hout]
    rfl
  have hpress : ((n.beginService card).crewWindow card).press.state = .fault := by
    rw [hwindow, Node.withHatch_press, talk.press, Node.withHatch_press, hfault]
  unfold Node.serviceHandling
  dsimp only
  rw [if_pos hstation]
  exact Node.startRecovery_press hpress

end Sys2Proof.Machine

/-- Settles O15: a refusal ends the release of the card refused, and with none the release is shown anew. -/
theorem ownPendingCardIsPresentedAgain : Obligations.OwnPendingCardIsPresentedAgain := by
  intro s dt card hacts hnone hnew hstart hscan hown
  let n := (s.node.advance dt).readBy card
  have hpending : n.hatch.ownPending card = true := hown
  refine ⟨_, execCardRead_of_new hacts hnone hnew, ?_⟩
  have again := Node.judgeCard_presentedAgain hpending
  rw [← Node.evaluateCard_of (n := n) hstart hscan] at again
  exact again.of_readBy (Node.pressTrigger_hatch _)

/-- Settles O16: the crew card is served, and the trigger leaves what it got. -/
theorem crewCardBeginsService : Obligations.CrewCardBeginsService := by
  intro s dt card r hacts hnone hnew hstart hscan hrevoked hr hvalid hcrew
  let n := (s.node.advance dt).readBy card
  have hiscrew : n.cards.IsCrew card := ⟨hrevoked, r, hr, hvalid, hcrew⟩
  have hserved : n.evaluateCard card = n.serviceHandling card := by
    rw [Node.evaluateCard_of (n := n) hstart hscan, Node.judgeCard_of_crew hiscrew]
  have served := n.serviceHandling_served card
  have window : Node.CrewWindowGiven s.node (n.serviceHandling card) (s.node.now + dt) card := served.window
  have hread : s.node.KeepsRecords n := ⟨rfl, rfl, rfl, rfl, rfl, rfl⟩
  have keeps := (hread.trans served.records).trans (Node.pressTrigger_keepsRecords _)
  have hhatch := (n.serviceHandling card).pressTrigger_hatch
  obtain ⟨hheld, haccounting, happend⟩ := keeps.log
  have hexec := execCardRead_of_new hacts hnone hnew
  change exec _ s = .next (State.mk (n.evaluateCard card).pressTrigger s.pending) at hexec
  rw [hserved] at hexec
  refine ⟨_, hexec, by rw [hhatch]; exact served.service, by rw [hhatch]; exact served.station,
    window.congr (Hatch.sameRelease_of_eq hhatch), fun hout hfault => ?_, keeps.cards, keeps.store, keeps.tally, keeps.clock,
    keeps.fill, hheld, haccounting, happend⟩
  have press := Node.serviceHandling_press (n := n) (card := card) hout hfault
  rw [Node.pressTrigger_of_not fun ht => nomatch press.1.symm.trans ht.2.1]
  exact press
end

section
/-! O20: closings of other openings and the first settling of hatch and lift (R48, R49, R62). -/

open Sys2Proof Sys2Proof.Machine

namespace Sys2Proof.Machine

/-- Nothing is counted or recorded: no deposit, no tally, no charge, no record, and the fill is as it was. -/
structure Node.CountsNothing (n m : Node) : Prop where
  tally      : m.tally = n.tally
  appendList : m.log.appendList = n.log.appendList
  accounting : m.log.accounting = n.log.accounting
  held       : m.log.held = n.log.held
  cards      : m.cards = n.cards
  store      : m.store = n.store
  deposits   : m.press.deposits = n.press.deposits
  fill       : m.sounding.fill = n.sounding.fill
  full       : m.sounding.full = n.sounding.full

theorem Node.countsNothing_iff {n m : Node} : n.CountsNothing m ↔
    m.tally = n.tally ∧ m.log.appendList = n.log.appendList ∧ m.log.accounting = n.log.accounting ∧
      m.log.held = n.log.held ∧ m.cards = n.cards ∧ m.store = n.store ∧ m.press.deposits = n.press.deposits ∧
      m.sounding.fill = n.sounding.fill ∧ m.sounding.full = n.sounding.full :=
  ⟨fun ⟨tally, appendList, accounting, held, cards, store, deposits, fill, full⟩ =>
      ⟨tally, appendList, accounting, held, cards, store, deposits, fill, full⟩,
    fun ⟨tally, appendList, accounting, held, cards, store, deposits, fill, full⟩ =>
      ⟨tally, appendList, accounting, held, cards, store, deposits, fill, full⟩⟩

theorem Node.CountsNothing.trans {a b c : Node} (h : a.CountsNothing b) (k : b.CountsNothing c) : a.CountsNothing c where
  tally := k.tally.trans h.tally
  appendList := k.appendList.trans h.appendList
  accounting := k.accounting.trans h.accounting
  held := k.held.trans h.held
  cards := k.cards.trans h.cards
  store := k.store.trans h.store
  deposits := k.deposits.trans h.deposits
  fill := k.fill.trans h.fill
  full := k.full.trans h.full

theorem Node.countsNothing_withHatch (n : Node) (h : Hatch) : n.CountsNothing (n.withHatch h) :=
  ⟨rfl, rfl, rfl, rfl, rfl, rfl, rfl, rfl, rfl⟩

theorem Node.SameButTalk.countsNothing {n m : Node} (h : n.SameButTalk m) : n.CountsNothing m :=
  ⟨h.tally, h.appendList, h.accounting, h.held, h.cards, h.store, congrArg Press.deposits h.press,
    congrArg Sounding.fill h.sounding, congrArg Sounding.full h.sounding⟩

theorem Node.resumePress_countsNothing (n : Node) : n.CountsNothing n.resumePress ∧ n.resumePress.hatch = n.hatch := by
  obtain ⟨p, hresumed, -, -, -, hdeposits⟩ := n.resumePress_spec
  rw [hresumed]
  exact ⟨⟨rfl, rfl, rfl, rfl, rfl, rfl, hdeposits, rfl, rfl⟩, rfl⟩

/-- A request that is tried leaves the fill and FULL (R3, R21). -/
theorem Sounding.triedAt_fill (u : Sounding) (now : Moment) (free : Prop) [Decidable free] (reading : Option Int) :
    (u.triedAt now free reading).fill = u.fill ∧ (u.triedAt now free reading).full = u.full := by
  unfold Sounding.triedAt
  (repeat' split) <;> exact ⟨rfl, rfl⟩

/-- The end of an event at the hatch or the lift: a request held may start a sounding, and the trigger is evaluated. Nothing is
counted, and the hatch controller and the call are as the event left them. -/
theorem Node.triedAndTriggered_keeps (n : Node) (reading : Option Int) :
    n.CountsNothing (n.trySounding reading).pressTrigger ∧ (n.trySounding reading).pressTrigger.hatch = n.hatch ∧
      (n.trySounding reading).pressTrigger.call = n.call := by
  rw [n.trySounding_eq]
  obtain ⟨hfill, hfull⟩ := n.sounding.triedAt_fill n.now (n.soundingDeferred = false) reading
  obtain ⟨same, hdeposits, -⟩ :=
    (n.withSounding (n.sounding.triedAt n.now (n.soundingDeferred = false) reading)).pressTrigger_same
  exact ⟨⟨same.tally, same.appendList, same.accounting, same.held, same.cards, same.store, hdeposits,
    (congrArg Sounding.fill same.sounding).trans hfill, (congrArg Sounding.full same.sounding).trans hfull⟩,
    same.hatch, same.call⟩

/-- A crew opening and a forced opening end with a closing (R62). -/
theorem Node.closeByPhase_of_uncounted {n : Node} (h : n.hatch.phase = .crewOpening ∨ n.hatch.phase = .forcedOpening) :
    ∃ a, n.closeByPhase = n.withHatch { n.hatch with acceptance := a, phase := .idle } ∧
      (n.hatch.phase = .crewOpening → a = none) := by
  unfold Node.closeByPhase
  rcases h with h | h <;> rw [h]
  · exact ⟨none, rfl, fun _ => rfl⟩
  · exact ⟨n.hatch.acceptance, rfl, nofun⟩

/-- The node whose hatch has just closed, before the phase is left (R62). -/
def Node.hatchClosing (n : Node) : Node :=
  (n.withHatch { n.hatch with hatch := .closed, openSince := none, stuck := false }).noticeCheck

theorem Node.hatchCloses_of {n : Node} (h : n.hatch.hatch = .opened) (reading : Option Int) :
    n.hatchCloses reading = (n.hatchClosing.closeByPhase.resumePress.trySounding reading).pressTrigger := if_pos h

/-- The end of a crew opening or a forced opening (R62). -/
theorem Node.hatchCloses_uncounted {n : Node} (ho : n.hatch.hatch = .opened)
    (hp : n.hatch.phase = .crewOpening ∨ n.hatch.phase = .forcedOpening) (reading : Option Int) :
    n.CountsNothing (n.hatchCloses reading) ∧ ∃ a, (n.hatchCloses reading).hatch =
      { n.hatch with hatch := .closed, openSince := none, stuck := false, acceptance := a, phase := .idle } ∧
      (n.hatch.phase = .crewOpening → a = none) := by
  have talk := Node.noticeCheck_talk (n.withHatch { n.hatch with hatch := .closed, openSince := none, stuck := false })
  change Node.SameButTalk _ n.hatchClosing at talk
  have hphase : n.hatchClosing.hatch.phase = n.hatch.phase := (congrArg Hatch.phase talk.hatch :)
  obtain ⟨a, hended, ha⟩ := Node.closeByPhase_of_uncounted (n := n.hatchClosing) (hphase ▸ hp)
  obtain ⟨resumed, hresumed⟩ := n.hatchClosing.closeByPhase.resumePress_countsNothing
  obtain ⟨tried, htried, -⟩ := n.hatchClosing.closeByPhase.resumePress.triedAndTriggered_keeps reading
  rw [Node.hatchCloses_of ho]
  refine ⟨?_, a, ?_, hphase ▸ ha⟩
  · have closing := (n.countsNothing_withHatch _).trans talk.countsNothing
    have ended : n.hatchClosing.CountsNothing n.hatchClosing.closeByPhase := by
      rw [hended]
      exact Node.countsNothing_withHatch _ _
    exact ((closing.trans ended).trans resumed).trans tried
  · rw [htried, hresumed, hended, Node.withHatch_hatch, talk.hatch]
    rfl

/-- The hatch settles (R48). -/
theorem Node.hatchSettles_uncounted {n : Node} (h : n.hatch.hatch = .unsettled) (isOpen : Bool) (reading : Option Int) :
    n.CountsNothing (n.hatchSettles isOpen reading) ∧ (n.hatchSettles isOpen reading).hatch =
      if isOpen then { n.hatch with hatch := .opened, openSince := some n.now, phase := .forcedOpening }
      else { n.hatch with hatch := .closed } := by
  unfold Node.hatchSettles
  rw [if_pos h]
  cases isOpen with
  | true => exact ⟨n.countsNothing_withHatch _, rfl⟩
  | false =>
    obtain ⟨tried, hhatch, -⟩ := (n.withHatch { n.hatch with hatch := .closed }).triedAndTriggered_keeps reading
    exact ⟨(n.countsNothing_withHatch _).trans tried, hhatch⟩

/-- The lift settles (R49). -/
theorem Node.liftSettles_uncounted {n : Node} (h : n.hatch.lift = .unsettled) (isLifted : Bool) (reading : Option Int) :
    n.CountsNothing (n.liftSettles isLifted reading) ∧
      (n.liftSettles isLifted reading).hatch = { n.hatch with lift := if isLifted then .lifted else .seated } ∧
      (n.liftSettles isLifted reading).call = n.call := by
  unfold Node.liftSettles
  rw [if_pos h]
  cases isLifted with
  | true => exact ⟨n.countsNothing_withHatch _, rfl, rfl⟩
  | false =>
    obtain ⟨tried, hhatch, hcall⟩ := (n.withHatch { n.hatch with lift := .seated }).triedAndTriggered_keeps reading
    exact ⟨(n.countsNothing_withHatch _).trans tried, hhatch, hcall⟩

end Sys2Proof.Machine

/-- Settles O20: each event changes the hatch controller, and what follows it counts nothing. -/
theorem closingAndSettlingCountNothing : Obligations.ClosingAndSettlingCountNothing := by
  intro s dt reading hacts
  have hadvance : s.node.CountsNothing (s.node.advance dt) := ⟨rfl, rfl, rfl, rfl, rfl, rfl, rfl, rfl, rfl⟩
  refine ⟨fun hopened hphase => ?_, fun hunsettled isOpen => ?_, fun hunsettled isLifted => ?_⟩
  · obtain ⟨counts, a, hhatch, ha⟩ := Node.hatchCloses_uncounted (n := s.node.advance dt) hopened hphase reading
    refine ⟨_, State.perform_station hacts dt _, Node.countsNothing_iff.mp (hadvance.trans counts), ?_⟩
    rw [hhatch]
    exact ⟨rfl, rfl, rfl, rfl, ha⟩
  · obtain ⟨counts, hhatch⟩ := Node.hatchSettles_uncounted (n := s.node.advance dt) hunsettled isOpen reading
    exact ⟨_, State.perform_station hacts dt _, Node.countsNothing_iff.mp (hadvance.trans counts), hhatch⟩
  · obtain ⟨counts, hhatch, hcall⟩ := Node.liftSettles_uncounted (n := s.node.advance dt) hunsettled isLifted reading
    exact ⟨_, State.perform_station hacts dt _, Node.countsNothing_iff.mp (hadvance.trans counts), hhatch, hcall⟩
end

section
/-! O17: the timers of the hatch controller and READ ERROR (R47, R50, R57 to R59, R65, R66), and what the units tell after
them. -/

open Sys2Proof Sys2Proof.Machine

namespace Sys2Proof.Machine

/-! ### What no unit that tells the street changes -/

/-- The mark of a new part, the configuration and status unit but for the answer in flight, and the receive buffer: no offer and
no draw changes them. -/
def Node.untold (n : Node) : Nat × Control × List Received :=
  (n.fresh, { n.control with answer := none }, n.line.buffer)

@[simp] theorem Node.reach_untold (n : Node) (t : Moment) : (n.reach t).untold = n.untold := rfl
@[simp] theorem Node.advance_untold (n : Node) (dt : Nat) : (n.advance dt).untold = n.untold := rfl
@[simp] theorem Node.withHatch_untold (n : Node) (x : Hatch) : (n.withHatch x).untold = n.untold := rfl
@[simp] theorem Node.withPress_untold (n : Node) (x : Press) : (n.withPress x).untold = n.untold := rfl
@[simp] theorem Node.withNeighbour_untold (n : Node) (x : Neighbour) : (n.withNeighbour x).untold = n.untold := rfl
@[simp] theorem Node.withCall_untold (n : Node) (x : Call) : (n.withCall x).untold = n.untold := rfl

@[simp] theorem Node.withLine_untold {n : Node} {x : Line} (h : x.buffer = n.line.buffer) :
    (n.withLine x).untold = n.untold := by
  simp [Node.untold, h]

@[simp] theorem Node.tellDisplaced_untold (n : Node) (owner : Owner) : (n.tellDisplaced owner).untold = n.untold := by
  unfold Node.tellDisplaced Node.harvestFinished Node.answerFinished
  (repeat' split) <;> rfl

@[simp] theorem Node.offer_untold (n : Node) (owner : Owner) (t : Telegram) : (n.offer owner t).1.untold = n.untold := by
  rcases n.offer_cases owner t with ⟨-, h⟩ | ⟨-, -, h⟩ | ⟨-, h⟩ | ⟨e, -, -, -, h⟩ | ⟨-, h⟩ <;> rw [h]
  · exact Node.withLine_untold rfl
  · exact Node.withLine_untold rfl
  · refine (Node.withLine_untold rfl).trans ((Node.tellDisplaced_untold _ _).trans ?_)
    exact (Node.withLine_untold rfl).trans (Node.withLine_untold rfl)
  · exact Node.withLine_untold rfl

@[simp] theorem Node.offerOnly_untold (n : Node) (owner : Owner) (t : Telegram) : (n.offerOnly owner t).untold = n.untold :=
  n.offer_untold owner t

@[simp] theorem Node.offerNotice_untold (n : Node) : n.offerNotice.untold = n.untold := by
  simp [Node.offerNotice]

@[simp] theorem Node.noticeCheck_untold (n : Node) : n.noticeCheck.untold = n.untold := by
  rcases n.noticeCheck_cases with ⟨h, -⟩ | ⟨h, -, -⟩ <;> rw [h]
  exact n.offerNotice_untold

@[simp] theorem Node.noticeStation_untold (n : Node) : n.noticeStation.untold = n.untold := by
  unfold Node.noticeStation
  split <;> simp

@[simp] theorem Node.raiseCall_untold (n : Node) : n.raiseCall.untold = n.untold := by
  have hset : ∀ (m : Node) (c : Call), (m.setCall c).untold = m.untold := fun m c => (m.withCall c).noticeCheck_untold
  by_cases h : n.raising
  · rw [Node.raiseCall_of h, n.newCall_eq]
    split
    · rw [hset, offerOnly_untold, hset]
    · exact hset n _
  · rw [Node.raiseCall_of_not h]

@[simp] theorem Node.pressTrigger_untold (n : Node) : n.pressTrigger.untold = n.untold := by
  have hclaiming : n.claiming.untold = n.untold := n.offer_untold .pressUnit n.claimTelegram
  by_cases h : n.triggered
  · rw [Node.pressTrigger_of h]
    split
    · exact hclaiming
    · refine Eq.trans ?_ hclaiming
      unfold Node.claimDropped Node.startRetry Node.draw
      split
      · exact Node.withLine_untold rfl
      · rfl
  · rw [Node.pressTrigger_of_not h]

/-- What a node becomes by an event at the hatch and by what is told of it. -/
theorem Node.eq_of_told {a m : Node} (hu : m.untold = a.untold) (power : m.power = a.power) (sounding : m.sounding = a.sounding)
    (cards : m.cards = a.cards) (tally : m.tally = a.tally) (clock : m.clock = a.clock) (store : m.store = a.store)
    (logBut : { m.log with harvest := a.log.harvest } = a.log) : m = { a with
      now := m.now, hatch := m.hatch, call := m.call, neighbour := m.neighbour, press := m.press, line := m.line
      relay := m.relay
      log := { a.log with harvest := m.log.harvest }
      control := { a.control with answer := m.control.answer } } := by
  obtain ⟨fresh, hu⟩ := Prod.mk.inj hu
  have control : m.control = { a.control with answer := m.control.answer } :=
    congrArg (fun c : Control => { c with answer := m.control.answer }) (Prod.mk.inj hu).1
  have log : m.log = { a.log with harvest := m.log.harvest } :=
    congrArg (fun l : Log => { l with harvest := m.log.harvest }) logBut
  obtain ⟨⟩ := m
  simp only [Node.mk.injEq]
  exact ⟨trivial, fresh, power, control, sounding, cards, trivial, tally, clock, store, log, trivial, trivial, trivial, trivial,
    trivial⟩

theorem Node.buffer_of_untold {n m : Node} (h : m.untold = n.untold) : m.line.buffer = n.line.buffer :=
  (Prod.mk.inj (Prod.mk.inj h).2).2

/-! ### The end of a window and of a deferred release (R57, R59, R66) -/

theorem Hatch.endRelease_eq (h : Hatch) : h.endRelease =
    let ended : Hatch := { h with phase := .idle, window := none, deferred := none, acceptance := none, lock := .off }
    match h.panel with
    | some ⟨_, none⟩ => { ended with panel := none, buzzer := .silent }
    | _ => ended := by
  unfold Hatch.endRelease Hatch.endStanding
  rcases hp : h.panel with _ | ⟨i, _ | t⟩ <;> rfl

/-- Where the trigger holds a claim is due as the step leaves the node (R112). -/
theorem Node.claimDue_of_triggered {before left : Node} (hset : left.control.settings = before.control.settings)
    (hpress : left.press = before.press) (h : left.triggered) : Node.ClaimDue before left := by
  obtain ⟨hfitted, hhome, hholds⟩ := h
  obtain ⟨hstation, hfill, hdeposits, hhours, hidle, hclosed, hseated, hflight, hretry⟩ := left.triggerHolds_iff.mp hholds
  exact ⟨hset ▸ hfitted, hpress ▸ hhome, hpress ▸ hretry, hstation, hset ▸ hfill, hdeposits, hhours, hidle, hclosed, hseated,
    hflight⟩

/-- The queue of a node that has offered nothing has room for a claim beside a notice. -/
theorem Node.room_of_same {before n : Node} (hp : n.control.phase = before.control.phase)
    (hq : n.line.queue = before.line.queue) (hs : before.control.phase ≠ .safe) (hlen : before.line.queue.length ≤ 2) :
    noticedLength n.line.queue < queueCapacity :=
  (Node.OffersUpTo.of_eq hp hq).room (by decide) hs hlen

/-! ### The end of the service period (R47, R150, R161) -/

section
variable {n : Node}

/-- The hatch controller once the service period has ended (R47). -/
def Hatch.serviceOver (h : Hatch) : Hatch :=
  { h with service := none, station := if h.station = .service then .ready else h.station }

/-- A station in SERVICE is READY again, tells of it and has raising evaluated (R47, R161). -/
theorem Node.endService_of (h : n.hatch.station = .service) :
    n.endService = (n.withHatch n.hatch.serviceOver).noticeStation.raiseCall := by
  simp [Node.endService, Node.setStation, Hatch.serviceOver, h]
  rfl

/-- Any other station tells of the end alone. -/
theorem Node.endService_of_not (h : n.hatch.station ≠ .service) :
    n.endService = (n.withHatch n.hatch.serviceOver).noticeCheck := by
  simp [Node.endService, Hatch.serviceOver, h]

/-- What the end of a service period tells, and the rest as it was. -/
theorem Node.endService_told (n : Node) : (n.withHatch n.hatch.serviceOver).SameButTalk n.endService ∧
    Node.OffersUpTo 1 n n.endService ∧ n.endService.untold = n.untold := by
  have hstart : Node.OffersUpTo 0 n (n.withHatch n.hatch.serviceOver) := .of_eq rfl rfl
  by_cases h : n.hatch.station = .service
  · rw [Node.endService_of h]
    have raised := (n.withHatch n.hatch.serviceOver).noticeStation.raiseCall_spec
    exact ⟨(Node.noticeStation_talk _).trans raised.1, (hstart.trans (Node.offersUpTo_noticeStation _)).trans raised.2.1,
      by simp⟩
  · rw [Node.endService_of_not h]
    exact ⟨Node.noticeCheck_talk _, (hstart.trans (Node.offersUpTo_noticeCheck _)).mono (by decide), by simp⟩

end

section
variable {before n : Node}

/-- Raising is evaluated when the station leaves SERVICE for READY (R161). -/
theorem Node.raisesCallWhen_endService (hh : n.hatch = before.hatch) (hc : n.call = before.call)
    (hset : n.control.settings = before.control.settings) (hp : n.line.polarity = before.line.polarity) :
    Node.RaisesCallWhen (before.hatch.station = .service) before n.endService.pressTrigger := by
  have same := n.endService.pressTrigger_same.1
  have talk := n.endService_told.1
  have hhatch : n.endService.pressTrigger.hatch = n.hatch.serviceOver := same.hatch.trans talk.hatch
  have hsounding : n.endService.pressTrigger.sounding = n.sounding := same.sounding.trans talk.sounding
  have hcall : n.endService.pressTrigger.call = n.endService.call := same.call
  unfold Node.RaisesCallWhen
  dsimp only
  rw [hhatch, hsounding, hcall, ← hset, ← hc, ← hh, ← hp, ← n.fillToCall_iff]
  by_cases h : n.hatch.station = .service
  · let k := (n.withHatch n.hatch.serviceOver).noticeStation
    have told : (n.withHatch n.hatch.serviceOver).SameButTalk k := Node.noticeStation_talk _
    have hkcall : k.call = n.call := Node.noticeStation_call _
    have hkhatch : k.hatch = n.hatch.serviceOver := told.hatch
    have hkfill : k.fillToCall = n.fillToCall := by
      simp only [Node.fillToCall, told.sounding, told.settings, Node.withHatch_sounding, Node.withHatch_control]
    have hraising : k.raising ↔ n.call.stopped = false ∧ n.call.state = .none ∧ n.hatch.serviceOver.station = .ready ∧
        n.fillToCall = true := by
      rw [Node.raising, hkcall, hkhatch, hkfill]
    have hpolarity : k.line.polarity = n.line.polarity := told.polarity
    rw [Node.endService_of h, ← hraising]
    refine ⟨fun hdue => ?_, fun hdue => ?_⟩
    · have raised := Node.raiseCall_raised hdue.2
      rwa [hkcall, hpolarity] at raised
    · exact (congrArg Node.call (Node.raiseCall_of_not fun hr => hdue ⟨h, hr⟩)).trans hkcall
  · rw [Node.endService_of_not h]
    exact ⟨fun hdue => absurd hdue.1 h, fun _ => Node.noticeCheck_call _⟩

/-- A notice follows the end of the service period when the content calls for one (R150). -/
theorem Node.noticeFollows_endService (hn : n.neighbour = before.neighbour) (hq : n.line.queue = before.line.queue)
    (hp : n.control.phase = before.control.phase) (hc : n.call = before.call) (law : before.NoticeLaw) :
    Node.NoticeFollows before n.endService.pressTrigger := by
  have hchecked : Node.NoticeFollows before (n.withHatch n.hatch.serviceOver).noticeCheck :=
    Node.noticeFollows_noticeCheck hn hq hp
  have hended : Node.NoticeFollows before n.endService := by
    by_cases h : n.hatch.station = .service
    · intro last hactive hlast
      have hstation := Node.noticeStation_of_active (n := n.withHatch n.hatch.serviceOver)
        ((congrArg Neighbour.phase hn).trans hactive)
      rw [Node.endService_of h, hstation]
      have offers := (Node.offersUpTo_noticeCheck (n.withHatch n.hatch.serviceOver)).congr_left hp hq
      refine hchecked.raiseCall offers ?_ last hactive hlast
      intro last hactive hlast
      rw [Node.noticeCheck_call]
      exact (law.last_callState last hactive hlast).trans (congrArg Call.state hc).symm
    · rwa [Node.endService_of_not h]
  have same := n.endService.pressTrigger_same.1
  have offers := (Node.OffersUpTo.of_eq hp hq).trans n.endService_told.2.1
  refine hended.congr same.neighbour same.now same.settings n.endService.pressTrigger_content fun hs hlen x hx => ?_
  exact Node.pressTrigger_stays (offers.phase ▸ hs) (offers.room (by decide) hs hlen) hx

end

/-! ### The other timers (R58, R65, R66) -/

section
variable {n : Node}

theorem Node.windowExpiry_of {t : Moment} (h : n.hatch.window = some t) :
    n.windowExpiry = ((n.reach t).withHatch n.hatch.endRelease).pressTrigger := by
  simp [Node.windowExpiry, h]

theorem Node.deferredExpiry_of {t : Moment} (h : n.hatch.deferred = some t) :
    n.deferredExpiry = (n.reach t).withHatch (n.hatch.endRelease.show (max n.now t) (.refusal 31)) := by
  simp [Node.deferredExpiry, h]

theorem Node.pullInEnd_of {t : Moment} (h : n.hatch.lock = .pullIn t) :
    n.pullInEnd = (n.reach t).withHatch { n.hatch with lock := .hold } := by
  simp [Node.pullInEnd, h]

theorem Node.serviceExpiry_of {p : ServicePeriod} (h : n.hatch.service = some p) :
    n.serviceExpiry = (n.reach p.ends).endService.pressTrigger := by
  simp [Node.serviceExpiry, h]

theorem Node.indicationExpiry_of {i : Indication} {t : Moment} (h : n.hatch.panel = some ⟨i, some t⟩) :
    n.indicationExpiry = (n.reach t).withHatch (n.hatch.showStanding (max n.now t)) := by
  simp [Node.indicationExpiry, h]

theorem Node.toneEnd_of {k : Nat} {begins ends : Moment} (h : n.hatch.buzzer = .tone k begins ends) :
    n.toneEnd = (n.reach ends).withHatch { n.hatch with buzzer := buzzerAfter k (max n.now ends) } := by
  simp [Node.toneEnd, h]

end

end Sys2Proof.Machine

/-- Settles O17: each timer's end at the hatch controller, and what is told of it. -/
theorem hatchTimersRunOut : Obligations.HatchTimersRunOut := by
  intro s dt hacts
  refine ⟨fun t ht => ?window, fun t ht => ?deferred, fun t ht => ?pullIn, fun p hp => ?service, fun i t hi => ?indication,
    fun k begins ends hk => ?tone, fun hnone => ?readError⟩
  case window =>
    intro ended left
    have hleft : ((s.node.advance dt).reach t).withHatch (s.node.advance dt).hatch.endRelease = left := by
      rw [Hatch.endRelease_eq]
      rfl
    have hexec : exec (.windowExpiry dt) s = .next ⟨left.pressTrigger, s.pending⟩ := by
      rw [← hleft, ← Node.windowExpiry_of (n := s.node.advance dt) ht]
      exact State.perform_station hacts dt _
    have same := left.pressTrigger_same.1
    refine ⟨fun hnot => ?_, left.pressTrigger, hexec, fun hs => ?_, ?_, Node.buffer_of_untold left.pressTrigger_untold⟩
    · rw [hexec, Node.pressTrigger_of_not fun h => hnot (Node.claimDue_of_triggered rfl rfl h)]
    · exact Node.claimsWhenTriggered rfl rfl rfl rfl hs (Node.room_of_same rfl rfl hs)
    · refine (Node.eq_of_told (a := left) left.pressTrigger_untold same.power same.sounding same.cards same.tally same.clock
        same.store same.logBut).trans ?_
      rw [same.now, same.hatch, same.call, same.neighbour]
      rfl
  case deferred =>
    refine (State.perform_station hacts dt _).trans ?_
    obtain ⟨p, b, hended⟩ := s.node.hatch.endRelease_spec
    rw [Node.deferredExpiry_of (n := s.node.advance dt) ht, Node.advance_hatch, hended]
    rfl
  case pullIn =>
    refine (State.perform_station hacts dt _).trans ?_
    rw [Node.pullInEnd_of (n := s.node.advance dt) ht]
    rfl
  case service =>
    let n := (s.node.advance dt).reach p.ends
    obtain ⟨told, offers, huntold⟩ := n.endService_told
    have same := n.endService.pressTrigger_same.1
    have hexec : exec (.servicePeriodExpiry dt) s = .next ⟨n.endService.pressTrigger, s.pending⟩ := by
      rw [← Node.serviceExpiry_of (n := s.node.advance dt) hp]
      exact State.perform_station hacts dt _
    have huntold : n.endService.pressTrigger.untold = s.node.untold := n.endService.pressTrigger_untold.trans huntold
    have keeps := told.keepsRecords.trans (Node.pressTrigger_keepsRecords _)
    refine ⟨_, hexec, same.now.trans told.now, same.hatch.trans told.hatch,
      Node.raisesCallWhen_endService (before := s.node) rfl rfl rfl rfl, fun hs => ?claims,
      Node.noticeFollows_endService (before := s.node) rfl rfl rfl rfl,
      Node.eq_of_told huntold (same.power.trans told.power) (same.sounding.trans told.sounding) keeps.cards keeps.tally
        keeps.clock keeps.store keeps.logBut, Node.buffer_of_untold huntold⟩
    have hpress : n.endService.press = s.node.press := told.press
    exact Node.claimsWhenTriggered (before := s.node) told.settings (by rw [hpress]) (by rw [hpress]) (by rw [hpress])
      (told.phase ▸ hs) fun hlen => offers.room (by decide) hs hlen
  case indication =>
    refine (State.perform_station hacts dt _).trans ?_
    rw [Node.indicationExpiry_of (n := s.node.advance dt) hi, Node.advance_hatch, Hatch.showStanding]
    cases s.node.hatch.standing <;> rfl
  case tone =>
    refine (State.perform_station hacts dt _).trans ?_
    rw [Node.toneEnd_of (n := s.node.advance dt) hk]
    cases k <;> rfl
  case readError =>
    refine (State.perform_station hacts dt _).trans ?_
    rw [if_neg (by simp [hnone])]
    rfl
end

section
/-! O23: the charge of a deposit (R83). -/

open Sys2Proof Sys2Proof.Machine

namespace Sys2Proof.Machine

/-- The factor of R83's table for the band that two bits name. -/
theorem bandFactor_toNat (band : BitVec 2) :
    bandFactor band.toNat = if band = 0 then 0 else if band = 1 then 4 else if band = 2 then 8 else 12 := by
  decide +revert

/-- A factor is at most 12. -/
theorem bandFactor_toNat_le (band : BitVec 2) : bandFactor band.toNat ≤ 12 := by
  have := band.isLt
  unfold bandFactor
  omega

end Sys2Proof.Machine

/-- Settles O23: the product of base and factor is at most 255 × 12, and the rest is rounding. -/
theorem chargeFollowsBandAndBase : Obligations.ChargeFollowsBandAndBase := by
  intro base band hbase
  simp only [Nat.mul_assoc]
  rw [← bandFactor_toNat]
  have hproduct : base * bandFactor band.toNat ≤ 255 * 12 := Nat.mul_le_mul hbase (bandFactor_toNat_le band)
  unfold chargeOf
  generalize base * bandFactor band.toNat = product at hproduct
  refine ⟨by omega, by omega, by omega, by omega, rfl, ?_, by simp [bandFactor]⟩
  simp only [if_true]
  omega
end

section
/-! What most commands leave of the node as the tables' laws speak of it: the lists within their bounds, the store, the card
table, the tally table and the day's totals, with nothing the deposit log has to write taken from it. -/

open Sys2Proof Sys2Proof.Machine

namespace Sys2Proof.Machine

/-! ### The lists of the units -/

/-- The transmit queue and the receive buffer are within their bounds (R138, R145). -/
def Line.Fits (l : Line) : Prop := l.queue.length ≤ queueCapacity ∧ l.buffer.length ≤ bufferCapacity

/-- The view table and the redirect-expect list are within their bounds (R152, R156). -/
def Neighbour.Fits (u : Neighbour) : Prop := u.views.length ≤ viewCapacity ∧ u.expected.length ≤ expectCapacity

/-- The relay's queues and its outstanding requests are within their bounds (R175, R180). -/
def Relay.Fits (r : Relay) : Prop :=
  r.lineToDepot.length ≤ relayCapacity ∧ r.depotToLine.length ≤ relayCapacity ∧ r.outstanding.length ≤ outstandingCapacity

/-- Every collection but the staging queue and the tally table is within its bound. -/
def Node.ListsFit (n : Node) : Prop :=
  n.line.Fits ∧ n.press.claims.length ≤ claimCapacity ∧ n.neighbour.Fits ∧ n.relay.Fits

/-- The capacities are those of the lists, the staging queue and the tally table. -/
theorem Node.withinCapacities_iff (n : Node) : n.WithinCapacities ↔
    n.ListsFit ∧ n.store.staging.length ≤ stagingCapacity ∧ n.tally.entries.length ≤ tallyCapacity := by
  constructor
  · intro h
    exact ⟨⟨⟨h.transmitQueue, h.receiveBuffer⟩, h.claimList, ⟨h.viewTable, h.expectList⟩,
      h.lineToDepot, h.depotToLine, h.outstanding⟩, h.stagingQueue, h.tallyTable⟩
  · rintro ⟨⟨⟨hqueue, hbuffer⟩, hclaims, ⟨hviews, hexpected⟩, hline, hdepot, houtstanding⟩, hstaging, htally⟩
    exact ⟨hqueue, hbuffer, hstaging, hclaims, htally, hviews, hexpected, hline, hdepot, houtstanding⟩

/-! ### What the deposit log has to write -/

/-- The log has something to write while one of its five causes stands (R89). -/
theorem Log.hasWork_iff (l : Log) : l.hasWork = true ↔ l.phase = .opened ∧
    (l.pair ≠ .none ∨ l.working.isSome = true ∨ l.appendList ≠ [] ∨ l.due = true ∨ l.mark.isSome = true) := by
  simp [Log.hasWork, or_assoc]

/-- A log of the same phase in which every cause stands that stood has as much to write. -/
theorem Log.hasWork_mono {l k : Log} (hphase : k.phase = l.phase) (hpair : k.pair = l.pair) (hworking : k.working = l.working)
    (happend : l.appendList ≠ [] → k.appendList ≠ []) (hdue : l.due = true → k.due = true)
    (hmark : l.mark.isSome = true → k.mark.isSome = true) (h : l.hasWork = true) : k.hasWork = true := by
  rw [Log.hasWork_iff] at h ⊢
  rw [hphase, hpair, hworking]
  tauto

/-- A log being scanned has nothing to write. -/
theorem Log.hasWork_of_scanning {l : Log} (h : l.phase = .scanning) : l.hasWork = false := by
  simp [Log.hasWork, h]

/-! ### What a step keeps -/

/-- The lists stay within their bounds, the store and the card table are as they were, and the log that had something to write
has still. -/
structure Node.KeepsStore (a n : Node) : Prop where
  lists : a.ListsFit → n.ListsFit
  store : n.store = a.store
  cards : n.cards = a.cards
  work  : a.log.hasWork = true → n.log.hasWork = true

/-- The tally table and the day's totals are as they were, too. -/
structure Node.KeepsForm (a n : Node) : Prop extends Node.KeepsStore a n where
  tally : n.tally = a.tally
  total : n.log.accounting.total = a.log.accounting.total
  count : n.log.accounting.count = a.log.accounting.count

theorem Node.KeepsStore.refl (n : Node) : n.KeepsStore n := ⟨id, rfl, rfl, id⟩

theorem Node.KeepsForm.refl (n : Node) : n.KeepsForm n := ⟨.refl n, rfl, rfl, rfl⟩

theorem Node.KeepsStore.trans {a n m : Node} (h : a.KeepsStore n) (k : n.KeepsStore m) : a.KeepsStore m :=
  ⟨k.lists ∘ h.lists, k.store.trans h.store, k.cards.trans h.cards, k.work ∘ h.work⟩

theorem Node.KeepsForm.trans {a n m : Node} (h : a.KeepsForm n) (k : n.KeepsForm m) : a.KeepsForm m :=
  ⟨h.toKeepsStore.trans k.toKeepsStore, k.tally.trans h.tally, k.total.trans h.total, k.count.trans h.count⟩

/-! ### One unit -/

section
variable {a n : Node}

theorem Node.KeepsStore.withTally (h : a.KeepsStore n) (x : Tally) : a.KeepsStore (n.withTally x) :=
  ⟨h.lists, h.store, h.cards, h.work⟩

theorem Node.KeepsStore.withLog (h : a.KeepsStore n) {x : Log} (hx : n.log.hasWork = true → x.hasWork = true) :
    a.KeepsStore (n.withLog x) :=
  ⟨h.lists, h.store, h.cards, hx ∘ h.work⟩

namespace Node.KeepsForm

theorem withNow (h : a.KeepsForm n) (x : Moment) : a.KeepsForm (n.withNow x) :=
  ⟨⟨h.lists, h.store, h.cards, h.work⟩, h.tally, h.total, h.count⟩

theorem advance (h : a.KeepsForm n) (dt : Nat) : a.KeepsForm (n.advance dt) := h.withNow _

theorem reach (h : a.KeepsForm n) (t : Moment) : a.KeepsForm (n.reach t) := h.withNow _

theorem withControl (h : a.KeepsForm n) (x : Control) : a.KeepsForm (n.withControl x) :=
  ⟨⟨h.lists, h.store, h.cards, h.work⟩, h.tally, h.total, h.count⟩

theorem withSounding (h : a.KeepsForm n) (x : Sounding) : a.KeepsForm (n.withSounding x) :=
  ⟨⟨h.lists, h.store, h.cards, h.work⟩, h.tally, h.total, h.count⟩

theorem withHatch (h : a.KeepsForm n) (x : Hatch) : a.KeepsForm (n.withHatch x) :=
  ⟨⟨h.lists, h.store, h.cards, h.work⟩, h.tally, h.total, h.count⟩

theorem withClock (h : a.KeepsForm n) (x : Clock) : a.KeepsForm (n.withClock x) :=
  ⟨⟨h.lists, h.store, h.cards, h.work⟩, h.tally, h.total, h.count⟩

theorem withCall (h : a.KeepsForm n) (x : Call) : a.KeepsForm (n.withCall x) :=
  ⟨⟨h.lists, h.store, h.cards, h.work⟩, h.tally, h.total, h.count⟩

theorem withPower (h : a.KeepsForm n) (x : Power) : a.KeepsForm (n.withPower x) :=
  ⟨⟨h.lists, h.store, h.cards, h.work⟩, h.tally, h.total, h.count⟩

/-- The number of free values taken stands in no law. -/
theorem withFresh (h : a.KeepsForm n) (x : Nat) : a.KeepsForm { n with fresh := x } :=
  ⟨⟨h.lists, h.store, h.cards, h.work⟩, h.tally, h.total, h.count⟩

theorem withLine (h : a.KeepsForm n) {x : Line} (hx : n.line.Fits → x.Fits := by exact id) : a.KeepsForm (n.withLine x) :=
  ⟨⟨fun fits => ⟨hx (h.lists fits).1, (h.lists fits).2⟩, h.store, h.cards, h.work⟩, h.tally, h.total, h.count⟩

theorem withPress (h : a.KeepsForm n) {x : Press} (hx : x.claims = n.press.claims := by rfl) :
    a.KeepsForm (n.withPress x) := by
  refine ⟨⟨fun fits => ?_, h.store, h.cards, h.work⟩, h.tally, h.total, h.count⟩
  obtain ⟨hline, hclaims, hrest⟩ := h.lists fits
  exact ⟨hline, hx ▸ hclaims, hrest⟩

theorem withClaims (h : a.KeepsForm n) {x : Press}
    (hx : n.press.claims.length ≤ claimCapacity → x.claims.length ≤ claimCapacity) : a.KeepsForm (n.withPress x) := by
  refine ⟨⟨fun fits => ?_, h.store, h.cards, h.work⟩, h.tally, h.total, h.count⟩
  obtain ⟨hline, hclaims, hrest⟩ := h.lists fits
  exact ⟨hline, hx hclaims, hrest⟩

theorem withNeighbour (h : a.KeepsForm n) {x : Neighbour} (hx : n.neighbour.Fits → x.Fits := by exact id) :
    a.KeepsForm (n.withNeighbour x) := by
  refine ⟨⟨fun fits => ?_, h.store, h.cards, h.work⟩, h.tally, h.total, h.count⟩
  obtain ⟨hline, hclaims, hneighbour, hrelay⟩ := h.lists fits
  exact ⟨hline, hclaims, hx hneighbour, hrelay⟩

theorem withRelay (h : a.KeepsForm n) {x : Relay} (hx : n.relay.Fits → x.Fits := by exact id) :
    a.KeepsForm (n.withRelay x) := by
  refine ⟨⟨fun fits => ?_, h.store, h.cards, h.work⟩, h.tally, h.total, h.count⟩
  obtain ⟨hline, hclaims, hneighbour, hrelay⟩ := h.lists fits
  exact ⟨hline, hclaims, hneighbour, hx hrelay⟩

theorem withLog (h : a.KeepsForm n) {x : Log} (htotal : x.accounting.total = n.log.accounting.total)
    (hcount : x.accounting.count = n.log.accounting.count) (hx : n.log.hasWork = true → x.hasWork = true) :
    a.KeepsForm (n.withLog x) :=
  ⟨h.toKeepsStore.withLog hx, h.tally, htotal.trans h.total, hcount.trans h.count⟩

/-- What leaves the rest of the node and its queue and buffer in their bounds. -/
theorem of_talk {m : Node} (h : a.KeepsForm n) (talk : n.SameButTalk m) (hline : n.line.Fits → m.line.Fits) :
    a.KeepsForm m := by
  refine h.trans ⟨⟨fun fits => ?_, talk.store, talk.cards, ?_⟩, talk.tally, ?_, ?_⟩
  · obtain ⟨hl, hclaims, hneighbour, hrelay⟩ := fits
    refine ⟨hline hl, talk.press ▸ hclaims, ?_, talk.relay ▸ hrelay⟩
    rwa [Neighbour.Fits, talk.views, talk.expected]
  · intro hw
    rw [← talk.logBut] at hw
    exact hw
  · rw [talk.accounting]
  · rw [talk.accounting]

/-! ### Choices -/

theorem ite {m k : Node} {c : Prop} [Decidable c] (hm : a.KeepsForm m) (hk : a.KeepsForm k) :
    a.KeepsForm (if c then m else k) := by
  split
  · exact hm
  · exact hk

theorem foldl {α : Type} {f : Node → α → Node} (hf : ∀ {m : Node} (x : α), a.KeepsForm m → a.KeepsForm (f m x))
    (xs : List α) (h : a.KeepsForm n) : a.KeepsForm (xs.foldl f n) := by
  induction xs generalizing n with
  | nil => exact h
  | cons x rest ih => exact ih (hf x h)

/-! ### Telling owners and the transmit queue (R138 to R141) -/

theorem draw (h : a.KeepsForm n) (k : Nat) : a.KeepsForm (n.draw k).1 := h.withLine

theorem harvestFinished (h : a.KeepsForm n) : a.KeepsForm n.harvestFinished := by
  unfold Node.harvestFinished
  split
  · exact h
  · split
    · exact h
    · exact h.withLog rfl rfl id
    · exact h.withLog rfl rfl id

theorem answerFinished (h : a.KeepsForm n) : a.KeepsForm n.answerFinished := by
  unfold Node.answerFinished
  split
  · exact h
  · exact (h.withControl _).ite h

theorem offer (h : a.KeepsForm n) (owner : Owner) (t : Telegram) : a.KeepsForm (n.offer owner t).1 := by
  refine h.of_talk ((n.sameButOffers_offer owner t).talk (n.offer_polarity owner t)) fun hfits => ?_
  exact ⟨n.offer_queue_length owner t hfits.1, Node.buffer_of_untold (n.offer_untold owner t) ▸ hfits.2⟩

theorem offerOnly (h : a.KeepsForm n) (owner : Owner) (t : Telegram) : a.KeepsForm (n.offerOnly owner t) := h.offer owner t

/-- A telegram that enters a queue with a free place. -/
theorem enqueue (h : a.KeepsForm n) (hroom : n.queueHasRoom = true) (owner : Owner) (t : Telegram) :
    a.KeepsForm (n.enqueue owner t) := by
  refine h.withLine fun hfits => ⟨?_, hfits.2⟩
  have : n.line.queue.length < queueCapacity := by simpa [Node.queueHasRoom] using hroom
  simpa using this

/-- The telegram taken leaves the receive buffer (R145). -/
theorem taken (h : a.KeepsForm n) (taker : Taker) :
    a.KeepsForm (n.withLine { n.line with buffer := withoutOldest taker n.line.buffer }) :=
  h.withLine fun hfits => ⟨hfits.1, (withoutOldest_length_le _ _).trans hfits.2⟩

theorem taking (h : a.KeepsForm n) (kind : Kind) {f : Node → Received → Node}
    (hf : ∀ {m : Node} (r : Received), a.KeepsForm m → a.KeepsForm (f m r)) : a.KeepsForm (n.taking kind f) := by
  rcases n.taking_cases kind f with e | ⟨r, -, -, e⟩ <;> rw [e]
  · exact h
  · exact hf r (h.taken _)

theorem receive (h : a.KeepsForm n) (t : Telegram) : a.KeepsForm (n.receive t) := by
  unfold Node.receive
  split
  next hroom => exact h.withLine fun hfits => ⟨hfits.1, by simpa using hroom⟩
  · exact h.withLine

/-! ### FILL NOTICEs and calls (08, 09) -/

theorem offerNotice (h : a.KeepsForm n) : a.KeepsForm n.offerNotice := (h.offerOnly _ _).withNeighbour

theorem noticeCheck (h : a.KeepsForm n) : a.KeepsForm n.noticeCheck := by
  rcases n.noticeCheck_cases with ⟨e, -⟩ | ⟨e, -, -⟩ <;> rw [e]
  · exact h
  · exact h.offerNotice

theorem noticeStation (h : a.KeepsForm n) : a.KeepsForm n.noticeStation :=
  ite h.withNeighbour.offerNotice h.noticeCheck

theorem offerRedirect (h : a.KeepsForm n) (card : CardNumber) (v : View) : a.KeepsForm (n.offerRedirect card v) :=
  h.offerOnly _ _

theorem dropExpected (h : a.KeepsForm n) (card : CardNumber) : a.KeepsForm (n.dropExpected card) :=
  h.withNeighbour fun hfits => ⟨hfits.1, (List.length_filter_le _ _).trans hfits.2⟩

theorem setCall (h : a.KeepsForm n) (c : Call) : a.KeepsForm (n.setCall c) := (h.withCall c).noticeCheck

theorem callOffer (h : a.KeepsForm n) : a.KeepsForm n.callOffer := ite ((h.offerOnly _ _).setCall _) h

theorem newCall (h : a.KeepsForm n) (lead : Option Lead) : a.KeepsForm (n.newCall lead) := (h.setCall _).callOffer

theorem raiseCall (h : a.KeepsForm n) : a.KeepsForm n.raiseCall := ite (h.newCall none) h

theorem missedRound (h : a.KeepsForm n) : a.KeepsForm n.missedRound := by
  unfold Node.missedRound
  split
  · exact ite (h.newCall none) h
  · exact h

theorem closeCall (h : a.KeepsForm n) (cause : Nat) : a.KeepsForm (n.closeCall cause) :=
  ite h ((h.offerOnly _ _).setCall _)

theorem resendExpiry (h : a.KeepsForm n) : a.KeepsForm n.resendExpiry := by
  unfold Node.resendExpiry
  split
  · exact ite (((h.reach _).offerOnly _ _).withCall _) ((h.reach _).setCall _)
  · exact h

theorem lapseExpiry (h : a.KeepsForm n) : a.KeepsForm n.lapseExpiry := by
  unfold Node.lapseExpiry
  split
  · exact ((h.reach _).setCall _).callOffer
  · exact h

theorem holdOffExpiry (h : a.KeepsForm n) : a.KeepsForm n.holdOffExpiry := by
  unfold Node.holdOffExpiry
  split
  · exact (h.reach _).setCall _
  · exact h

theorem hearAnswer (h : a.KeepsForm n) (x : CallAnswer) : a.KeepsForm (n.hearAnswer x) := by
  unfold Node.hearAnswer
  refine ite h (ite (ite ?_ (ite h (h.setCall _))) (h.withCall _))
  exact (h.setCall _).missedRound

theorem hearCall (h : a.KeepsForm n) (r : Received) : a.KeepsForm (n.hearCall r) := ite (h.newCall _) h

theorem hearJoin (h : a.KeepsForm n) (r : Received) : a.KeepsForm (n.hearJoin r) := ite (h.newCall _) h

/-! ### The sounding (01) -/

theorem armSounding (h : a.KeepsForm n) (delay : Nat) : a.KeepsForm (n.armSounding delay) := h.withSounding _

theorem trySounding (h : a.KeepsForm n) (reading : Option Int) : a.KeepsForm (n.trySounding reading) :=
  n.trySounding_eq reading ▸ h.withSounding _

theorem abandonSounding (h : a.KeepsForm n) : a.KeepsForm n.abandonSounding := n.abandonSounding_eq ▸ h.withSounding _

theorem depositEstimate (h : a.KeepsForm n) : a.KeepsForm n.depositEstimate := ite h (h.withSounding _).noticeCheck

theorem liftFill (h : a.KeepsForm n) : a.KeepsForm n.liftFill := ite h (h.withSounding _).abandonSounding.noticeCheck

theorem soundingDue (h : a.KeepsForm n) (reading : Option Int) : a.KeepsForm (n.soundingDue reading) := by
  unfold Node.soundingDue
  split
  · exact h
  · exact ite ((h.reach _).trySounding reading) h

theorem startSlot (h : a.KeepsForm n) (f : Flight) : a.KeepsForm (n.startSlot f) := by
  unfold Node.startSlot
  dsimp only
  split
  · split
    · exact h.withSounding _
    · exact (h.reach _).withSounding _
  · exact h

theorem atSlot (h : a.KeepsForm n) {f : Node → Flight → PingSlot → Node}
    (hf : ∀ fl sl, a.KeepsForm (f n fl sl)) : a.KeepsForm (n.atSlot f) := by
  unfold Node.atSlot
  split
  · exact h
  · split
    · exact h
    · exact hf _ _

theorem burstEnd (h : a.KeepsForm n) (f : Flight) (sl : PingSlot) : a.KeepsForm (n.burstEnd f sl) :=
  ite ((h.reach _).withSounding _) h

theorem blankingEnd (h : a.KeepsForm n) (f : Flight) (sl : PingSlot) : a.KeepsForm (n.blankingEnd f sl) :=
  ite ((h.reach _).withSounding _) h

theorem echoEdge (h : a.KeepsForm n) (f : Flight) (sl : PingSlot) : a.KeepsForm (n.echoEdge f sl) := ite (h.withSounding _) h

theorem windowEnd (h : a.KeepsForm n) (f : Flight) (sl : PingSlot) : a.KeepsForm (n.windowEnd f sl) :=
  ite ((h.reach _).withSounding _) h

theorem takeEvaluation (h : a.KeepsForm n) (repeated : Bool) (e : Evaluation) : a.KeepsForm (n.takeEvaluation repeated e) := by
  cases e with
  | failed => exact (h.withSounding _).noticeCheck
  | used median fill unsteady => exact (h.withSounding _).noticeCheck

theorem periodicExpiry (h : a.KeepsForm n) : a.KeepsForm n.periodicExpiry := by
  unfold Node.periodicExpiry
  split
  · exact h
  · exact ((h.reach _).withSounding _).armSounding 0

end Node.KeepsForm
end

end Sys2Proof.Machine
end

section
/-! The units of the station keep the form of the tables: the claim list and the tables of the neighbours stay within their
bounds (R116, R152, R156), and the rest is as it was. -/

open Sys2Proof Sys2Proof.Machine

namespace Sys2Proof.Machine

/-! ### The island claim list (R116) -/

@[simp] theorem Press.endDrive_claims (p : Press) (now : Moment) : (p.endDrive now).claims = p.claims := by
  unfold Press.endDrive
  split <;> rfl

@[simp] theorem Press.beginForward_claims (p : Press) (now : Moment) : (p.beginForward now).claims = p.claims := by
  unfold Press.beginForward
  dsimp only
  split <;> rfl

@[simp] theorem Press.interrupt_claims (p : Press) (now : Moment) : (p.interrupt now).claims = p.claims := by
  unfold Press.interrupt
  split
  · exact p.endDrive_claims now
  · split <;> rfl
  · split
    · exact p.endDrive_claims now
    · rfl
  · rfl

theorem withoutClaim_length_le (address : Nat) (claims : List ClaimEntry) :
    (withoutClaim address claims).length ≤ claims.length := List.length_filter_le _ _

/-- A claim entered in a full list takes the place of the oldest. -/
theorem enterClaim_length_le {claims : List ClaimEntry} (h : claims.length ≤ claimCapacity) (address : Nat) (expiry : Moment) :
    (enterClaim address expiry claims).length ≤ claimCapacity := by
  have hrest := withoutClaim_length_le address claims
  unfold enterClaim claimCapacity at *
  dsimp only
  split <;> simp <;> omega

/-! ### The tables of the neighbour unit (R152, R156) -/

theorem withoutView_length_le (address : Nat) (views : List View) : (withoutView address views).length ≤ views.length :=
  List.length_filter_le _ _

/-- The view heard longest ago is one of the table's. -/
theorem mem_of_earliestView {views : List View} {v : View} (h : earliestView views = some v) : v ∈ views := by
  induction views generalizing v with
  | nil => cases h
  | cons x rest ih =>
    unfold earliestView at h
    split at h
    · simp_all
    next w hw => split at h <;> simp_all

/-- A table with a view has one heard longest ago. -/
theorem earliestView_eq_none {views : List View} (h : earliestView views = none) : views = [] := by
  cases views with
  | nil => rfl
  | cons x rest =>
    unfold earliestView at h
    split at h
    · cases h
    · split at h <;> cases h

/-- A view entered in a full table takes the place of another. -/
theorem enterView_length_le {views : List View} (h : views.length ≤ viewCapacity) (v : View) :
    (enterView v views).length ≤ viewCapacity := by
  unfold enterView
  split
  · simpa using h
  · split
    next hroom => simpa using hroom
    · split
      next hnone => simp [earliestView_eq_none hnone, viewCapacity]
      next w hw =>
        have hless : (withoutView w.address views).length < views.length :=
          List.length_filter_lt_length_iff_exists.mpr ⟨w, mem_of_earliestView hw, by simp⟩
        simp only [List.length_append, List.length_singleton]
        omega

/-- A card entered in a full list takes the place of another. -/
theorem enterExpected_length_le {list : List Expected} (h : list.length ≤ expectCapacity) (card : CardNumber) (now : Moment) :
    (enterExpected card now list).length ≤ expectCapacity := by
  unfold enterExpected
  split
  next hheld =>
    obtain ⟨e, he, hcard⟩ := List.any_eq_true.mp hheld
    have hless : (list.filter (fun e => e.card != card)).length < list.length :=
      List.length_filter_lt_length_iff_exists.mpr ⟨e, he, by simpa using hcard⟩
    simp only [List.length_append, List.length_singleton]
    omega
  · split
    next hroom => simpa using hroom
    · simp only [List.length_append, List.length_drop, List.length_singleton, expectCapacity] at *
      omega

/-! ### The log's requests (R94, R99, R103) -/

/-- An event that arrives leaves the log something to write where it had. -/
theorem Log.enterEvent_hasWork (l : Log) (e : LogEntry) (h : l.hasWork = true) : (l.enterEvent e).hasWork = true := by
  unfold Log.enterEvent Log.lose
  split
  · exact Log.hasWork_mono (l := l) rfl rfl rfl (fun _ => by simp) id id h
  · exact Log.hasWork_mono (l := l) rfl rfl rfl id (fun hdue => by simp [hdue]) id h

/-- A pending mark is something to write. -/
theorem Log.hasWork_of_mark {l : Log} (hphase : l.phase = .opened) (hmark : l.mark.isSome = true) : l.hasWork = true :=
  l.hasWork_iff.mpr ⟨hphase, .inr (.inr (.inr (.inr hmark)))⟩

/-- A log made ready for the summary has the phase and the pair that it had, and a loss is none of the day's totals. -/
theorem Log.loseNewestEvent_accounting (l : Log) : l.loseNewestEvent.accounting = l.accounting := by
  unfold Log.loseNewestEvent
  split <;> rfl

theorem Log.loseNewestEvent_phase (l : Log) : l.loseNewestEvent.phase = l.phase := by
  unfold Log.loseNewestEvent
  split <;> rfl

/-- The summary clears the overflow counters of the day, and not its totals. -/
theorem Log.summarise_accounting (l : Log) (summary : LogEntry) :
    (l.summarise summary).accounting = { l.accounting with overflowCount := 0, overflowCharge := 0 } := by
  unfold Log.summarise
  dsimp only
  split
  · exact Log.loseNewestEvent_accounting _
  · rfl

theorem Log.summarise_phase (l : Log) (summary : LogEntry) : (l.summarise summary).phase = l.phase := by
  unfold Log.summarise
  dsimp only
  split
  · exact Log.loseNewestEvent_phase _
  · rfl

namespace Node.KeepsForm

section
variable {a n : Node}

/-! ### The deposit log (05) -/

theorem requestRecord (h : a.KeepsForm n) (body : RecordBody) (fill : Option Nat) : a.KeepsForm (n.requestRecord body fill) :=
  ite (h.withLog rfl rfl id)
    (h.withLog (by rw [Log.enterEvent_accounting]) (by rw [Log.enterEvent_accounting]) (Log.enterEvent_hasWork _ _))

theorem countPressCycle (h : a.KeepsForm n) : a.KeepsForm n.countPressCycle :=
  h.withLog rfl rfl (Log.hasWork_mono rfl rfl rfl id (fun _ => rfl) id)

/-- Freed records leave a mark to write (R103). -/
theorem freeRecords (h : a.KeepsForm n) (freed kept : List LogRecord) : a.KeepsForm (n.freeRecords freed kept) := by
  unfold Node.freeRecords
  split
  · exact h
  · dsimp only
    split
    · refine h.withLog ?_ ?_ fun hw => ?_
      · rw [Log.summarise_accounting]
      · rw [Log.summarise_accounting]
      · exact Log.hasWork_of_mark ((Log.summarise_phase _ n.summaryEntry).trans (Log.hasWork_iff _ |>.mp hw).1) rfl
    · exact h.withLog rfl rfl fun hw => Log.hasWork_of_mark (Log.hasWork_iff _ |>.mp hw).1 rfl

/-! ### The press unit (06) -/

theorem startForward (h : a.KeepsForm n) : a.KeepsForm n.startForward :=
  let began := h.withPress (Press.beginForward_claims n.press n.now)
  ite began.abandonSounding began

theorem resumePress (h : a.KeepsForm n) : a.KeepsForm n.resumePress := ite h.withPress h

theorem startRetry (h : a.KeepsForm n) : a.KeepsForm n.startRetry := (h.draw 41).withPress

theorem claimDropped (h : a.KeepsForm n) : a.KeepsForm n.claimDropped := ite h.withPress.startRetry h

theorem releaseClaim (h : a.KeepsForm n) : a.KeepsForm n.releaseClaim :=
  (h.offerOnly _ _).withClaims (withoutClaim_length_le _ _).trans

theorem pressTrigger (h : a.KeepsForm n) : a.KeepsForm n.pressTrigger := by
  have claiming : a.KeepsForm n.claiming := (h.offer _ _).withPress
  by_cases ht : n.triggered
  · rw [Node.pressTrigger_of ht]
    exact ite claiming claiming.claimDropped
  · rwa [Node.pressTrigger_of_not ht]

theorem grantClaim (h : a.KeepsForm n) (supplyLow : Bool) : a.KeepsForm (n.grantClaim supplyLow) :=
  ite (h.releaseClaim.withPress) (ite (h.releaseClaim.withPress) h.startForward)

theorem judgeClaim (h : a.KeepsForm n) (supplyLow : Bool) : a.KeepsForm (n.judgeClaim supplyLow) :=
  ite (h.grantClaim supplyLow) (h.releaseClaim.withPress).startRetry

theorem claimSent (h : a.KeepsForm n) (supplyLow : Bool) : a.KeepsForm (n.claimSent supplyLow) :=
  ite ((h.withClaims fun hfits => enterClaim_length_le hfits _ _).judgeClaim supplyLow) h

/-! ### The hatch controller (03) -/

theorem setStation (h : a.KeepsForm n) (state : StationState) : a.KeepsForm (n.setStation state) :=
  let told := (h.withHatch { n.hatch with station := state }).noticeStation
  ite h (ite told.raiseCall told)

theorem evaluateStart (h : a.KeepsForm n) : a.KeepsForm n.evaluateStart := ite ((h.withHatch _).setStation _) h

theorem outOfService (h : a.KeepsForm n) : a.KeepsForm n.outOfService := ite h (h.setStation _)

theorem backInService (h : a.KeepsForm n) : a.KeepsForm n.backInService := (ite (h.setStation _) h).evaluateStart

theorem beginService (h : a.KeepsForm n) (card : CardNumber) : a.KeepsForm (n.beginService card) :=
  ite ((h.withHatch _).setStation _) (h.withHatch _).noticeCheck

theorem endService (h : a.KeepsForm n) : a.KeepsForm n.endService :=
  ite ((h.withHatch _).setStation _) (h.withHatch _).noticeCheck

theorem countPressDeposit (h : a.KeepsForm n) : a.KeepsForm n.countPressDeposit := ite h.withPress h

theorem deferredToWindow (h : a.KeepsForm n) : a.KeepsForm n.deferredToWindow := by
  unfold Node.deferredToWindow
  split
  · split
    · exact h
    · exact ite (h.withHatch _) (h.withHatch _)
  · exact h

theorem endCycle (h : a.KeepsForm n) : a.KeepsForm n.endCycle :=
  ((h.releaseClaim.withPress).armSounding cycleSoundingDelay).countPressCycle

theorem reachHome (h : a.KeepsForm n) (reading : Option Int) : a.KeepsForm (n.reachHome reading) :=
  let home := (h.withPress (x := n.press.atHome n.now) (n.press.endDrive_claims n.now)).noticeCheck
  ((ite home.endCycle home).backInService.deferredToWindow.trySounding reading).pressTrigger

theorem pressFault (h : a.KeepsForm n) : a.KeepsForm n.pressFault :=
  let fault := h.withPress (x := { (n.press.endDrive n.now) with
    state := .fault, paused := false, dwellEnds := none, homeSwitch := .inactive }) (n.press.endDrive_claims n.now)
  (ite fault.releaseClaim fault).noticeCheck.outOfService

theorem refuse (h : a.KeepsForm n) (code : Nat) : a.KeepsForm (n.refuse code) := h.withHatch _

theorem refuseEarly (h : a.KeepsForm n) (card : CardNumber) (code : Nat) : a.KeepsForm (n.refuseEarly card code) :=
  h.withHatch _

theorem redirectCard (h : a.KeepsForm n) (card : CardNumber) : a.KeepsForm (n.redirectCard card) := by
  unfold Node.redirectCard
  split
  · exact (h.withHatch _).offerRedirect _ _
  · exact h.refuse _

theorem acceptCard (h : a.KeepsForm n) (x : Acceptance) : a.KeepsForm (n.acceptCard x) := ite (h.withHatch _) (h.withHatch _)

theorem judgeDeposit (h : a.KeepsForm n) (r : CardRecord) : a.KeepsForm (n.judgeDeposit r) :=
  ite (h.refuse 30) (ite (h.redirectCard _) (ite (h.refuse 15) (h.acceptCard _)))

theorem presentAgain (h : a.KeepsForm n) : a.KeepsForm n.presentAgain := ite (h.withHatch _) (h.withHatch _)

theorem startRecovery (h : a.KeepsForm n) : a.KeepsForm n.startRecovery := by
  refine ite ((h.withPress ?_).abandonSounding.noticeCheck) h
  split <;> rfl

theorem crewWindow (h : a.KeepsForm n) (card : CardNumber) : a.KeepsForm (n.crewWindow card) :=
  ite (h.refuse 32) (ite (h.refuse 30) (ite (h.withHatch _) (h.withHatch _)))

theorem serviceHandling (h : a.KeepsForm n) (card : CardNumber) : a.KeepsForm (n.serviceHandling card) :=
  let served := (h.beginService card).crewWindow card
  ite served.startRecovery served

theorem judgeCard (h : a.KeepsForm n) (card : CardNumber) : a.KeepsForm (n.judgeCard card) := by
  refine ite (h.refuseEarly _ _) ?_
  split
  · exact h.refuseEarly _ _
  · exact ite (h.refuseEarly _ _) (ite (h.serviceHandling _) (ite (h.refuseEarly _ _) (ite (h.refuseEarly _ _)
      (ite h.presentAgain (h.judgeDeposit _)))))

theorem evaluateCard (h : a.KeepsForm n) (card : CardNumber) : a.KeepsForm (n.evaluateCard card) :=
  ite (h.refuseEarly _ _) (ite (h.withHatch _) (h.judgeCard card))

theorem cardRead (h : a.KeepsForm n) (card : CardNumber) : a.KeepsForm (n.cardRead card) :=
  let read := h.withHatch { n.hatch with lastRead := some ⟨card, n.now⟩ }
  ite h (ite read (read.evaluateCard card).pressTrigger)

theorem resumeEvaluation (h : a.KeepsForm n) : a.KeepsForm n.resumeEvaluation := by
  unfold Node.resumeEvaluation
  split
  · exact h
  · exact (h.withHatch _).judgeCard _

theorem windowExpiry (h : a.KeepsForm n) : a.KeepsForm n.windowExpiry := by
  unfold Node.windowExpiry
  split
  · exact h
  · exact ((h.reach _).withHatch _).pressTrigger

theorem pullInEnd (h : a.KeepsForm n) : a.KeepsForm n.pullInEnd := by
  unfold Node.pullInEnd
  split
  · exact (h.reach _).withHatch _
  · exact h

theorem deferredExpiry (h : a.KeepsForm n) : a.KeepsForm n.deferredExpiry := by
  unfold Node.deferredExpiry
  split
  · exact h
  · exact (h.reach _).withHatch _

theorem serviceExpiry (h : a.KeepsForm n) : a.KeepsForm n.serviceExpiry := by
  unfold Node.serviceExpiry
  split
  · exact h
  · exact (h.reach _).endService.pressTrigger

theorem indicationExpiry (h : a.KeepsForm n) : a.KeepsForm n.indicationExpiry := by
  unfold Node.indicationExpiry
  split
  · exact h
  · split
    · exact h
    · exact (h.reach _).withHatch _

theorem toneEnd (h : a.KeepsForm n) : a.KeepsForm n.toneEnd := by
  unfold Node.toneEnd
  split
  · exact (h.reach _).withHatch _
  · exact h

theorem interruptPress (h : a.KeepsForm n) : a.KeepsForm n.interruptPress :=
  ite (h.withPress (n.press.interrupt_claims n.now)) h

theorem hatchSettles (h : a.KeepsForm n) (isOpen : Bool) (reading : Option Int) : a.KeepsForm (n.hatchSettles isOpen reading) :=
  ite (ite (h.withHatch _) ((h.withHatch _).trySounding reading).pressTrigger) h

theorem forcedOpening (h : a.KeepsForm n) : a.KeepsForm n.forcedOpening := (h.withHatch _).requestRecord _ _

theorem openByPhase (h : a.KeepsForm n) : a.KeepsForm n.openByPhase := by
  unfold Node.openByPhase
  split
  · exact h.withHatch _
  · exact (h.withHatch _).forcedOpening
  · exact h.forcedOpening
  all_goals exact h

theorem hatchOpens (h : a.KeepsForm n) : a.KeepsForm n.hatchOpens :=
  ite (h.withHatch _).openByPhase.abandonSounding.interruptPress.pressTrigger h

theorem hatchSticks (h : a.KeepsForm n) : a.KeepsForm n.hatchSticks := by
  unfold Node.hatchSticks
  split
  · exact h
  · exact ite h ((h.reach _).withHatch _).noticeCheck

theorem liftSettles (h : a.KeepsForm n) (isLifted : Bool) (reading : Option Int) :
    a.KeepsForm (n.liftSettles isLifted reading) :=
  ite (ite (h.withHatch _) ((h.withHatch _).trySounding reading).pressTrigger) h

theorem liftCall (h : a.KeepsForm n) : a.KeepsForm n.liftCall := by
  unfold Node.liftCall
  split
  · exact (h.requestRecord _ _).closeCall 0
  · exact (h.requestRecord _ _).closeCall 1

theorem seats (h : a.KeepsForm n) (reading : Option Int) : a.KeepsForm (n.seats reading) :=
  ite ((((h.withHatch _).armSounding _).resumePress.trySounding reading).pressTrigger) h

theorem soundingEnd (h : a.KeepsForm n) : a.KeepsForm n.soundingEnd := by
  unfold Node.soundingEnd
  split
  · exact h
  · split
    · exact h
    · exact ite (((h.reach _).takeEvaluation _ _).withHatch _).evaluateStart.raiseCall.pressTrigger h

/-! ### Class-3 telegrams (R101, R140, R190) -/

theorem buildHarvest (h : a.KeepsForm n) (hroom : n.queueHasRoom = true) : a.KeepsForm n.buildHarvest := by
  unfold Node.buildHarvest
  split
  · exact h
  · split
    · exact h
    · exact (h.enqueue hroom _ _).withLog rfl rfl id

theorem buildStatus (h : a.KeepsForm n) (hroom : n.queueHasRoom = true) : a.KeepsForm n.buildStatus := by
  unfold Node.buildStatus
  split
  · exact h
  · exact ite h ((h.enqueue hroom _ _).withControl _)

theorem produce (h : a.KeepsForm n) (hroom : n.queueHasRoom = true) (p : Producer) : a.KeepsForm (n.produce p) := by
  cases p with
  | harvest => exact h.buildHarvest hroom
  | status => exact h.buildStatus hroom

theorem offerClass3 (h : a.KeepsForm n) (p : Producer) : a.KeepsForm (n.offerClass3 p) := by
  refine ite (ite h ?_) h
  split
  next hadmit => exact h.produce (Bool.and_eq_true_iff.mp hadmit).2 p
  · exact h.withLine

theorem admitWaiting (h : a.KeepsForm n) : a.KeepsForm n.admitWaiting := by
  unfold Node.admitWaiting
  split
  · exact h
  next p rest _ =>
    split
    next hroom => exact (h.withLine (x := { n.line with waiting := rest })).produce hroom p
    · exact h

theorem disown (h : a.KeepsForm n) (owner : Owner) (p : Producer) : a.KeepsForm (n.disown owner p) :=
  h.withLine fun hfits => ⟨by simpa using hfits.1, hfits.2⟩

theorem requestStatus (h : a.KeepsForm n) (tag : Nat) : a.KeepsForm (n.requestStatus tag) := by
  unfold Node.requestStatus
  split
  · exact h.withControl _
  · exact ite (h.withControl _) ((h.disown _ _).withControl _)

theorem fixHarvest (h : a.KeepsForm n) (tag : Nat) (f : Sequence) (m : Nat) : a.KeepsForm (n.fixHarvest tag f m) :=
  (h.disown _ _).withLog rfl rfl id

end

end Node.KeepsForm

end Sys2Proof.Machine
end

section
/-! The tally table (R69 to R72): what a lookup finds, which entry is evicted, what a touch does, and the table's law; O24. -/

open Sys2Proof Sys2Proof.Machine

namespace Sys2Proof.Machine

/-! ### The law of a table -/

/-- The law of the tally unit (R69, R71, R72), said of the table alone. -/
structure Tally.Law (t : Tally) : Prop where
  capacity : t.entries.length ≤ tallyCapacity
  once     : t.entries.Pairwise (fun a b => a.card ≠ b.card)
  counts   : ∀ e ∈ t.entries, e.loc ≤ 15 ∧ e.heard ≤ 63 ∧ e.stamp ≤ t.touches
  stamps   : t.entries.Pairwise (fun a b => a.stamp ≠ b.stamp)
  touches  : t.touches ≤ lastTouch

theorem Node.tallyLaw_iff (n : Node) : n.TallyLaw ↔ n.tally.Law :=
  ⟨fun h => ⟨h.capacity, h.once, h.counts, h.stamps, h.touches⟩, fun h => ⟨h.capacity, h.once, h.counts, h.stamps, h.touches⟩⟩

/-- An empty table meets the law. -/
theorem Tally.law_of_empty {t : Tally} (h : t.entries = []) (htouches : t.touches ≤ lastTouch) : t.Law := by
  refine ⟨?_, ?_, ?_, ?_, htouches⟩ <;> simp [h]

/-- The loss counter and the end of the rebuild stand in no law. -/
theorem Tally.Law.congr {t u : Tally} (h : t.Law) (he : u.entries = t.entries) (ht : u.touches = t.touches) : u.Law := by
  refine ⟨?_, ?_, ?_, ?_, ?_⟩ <;> simp only [he, ht]
  · exact h.capacity
  · exact h.once
  · exact h.counts
  · exact h.stamps
  · exact h.touches

/-! ### Lookups and changes of one entry -/

section
variable {card : CardNumber} {entries : List TallyEntry} {e : TallyEntry}

theorem tallyEntry_eq_none_iff : tallyEntry card entries = none ↔ ∀ e ∈ entries, e.card ≠ card := by
  simp [tallyEntry]

theorem tallyEntry_eq_some (h : tallyEntry card entries = some e) : e ∈ entries ∧ e.card = card :=
  ⟨List.mem_of_find?_eq_some h, by simpa using List.find?_some h⟩

/-- The entry of the card, with a new stamp and raised; any other as it was. -/
def touchEntry (card : CardNumber) (raise : TallyEntry → TallyEntry) (stamp : Nat) (e : TallyEntry) : TallyEntry :=
  if e.card == card then { raise e with stamp := stamp } else e

variable {raise : TallyEntry → TallyEntry} {stamp : Nat}

theorem touchEntry_of (h : e.card = card) : touchEntry card raise stamp e = { raise e with stamp := stamp } := by
  simp [touchEntry, h]

theorem touchEntry_of_not (h : e.card ≠ card) : touchEntry card raise stamp e = e := by
  simp [touchEntry, h]

theorem touchEntry_card (hraise : ∀ e, (raise e).card = e.card) (e : TallyEntry) :
    (touchEntry card raise stamp e).card = e.card := by
  unfold touchEntry
  split
  · exact hraise e
  · rfl

/-- The changed table answers for the card with its changed entry. -/
theorem tallyEntry_map_touchEntry (hraise : ∀ e, (raise e).card = e.card) :
    tallyEntry card (entries.map (touchEntry card raise stamp)) =
      (tallyEntry card entries).map (fun e => { raise e with stamp := stamp }) := by
  have hfind : (fun e : TallyEntry => e.card == card) ∘ touchEntry card raise stamp = fun e => e.card == card := by
    funext e
    simp [touchEntry_card hraise]
  rw [tallyEntry, List.find?_map, hfind, ← tallyEntry]
  cases hold : tallyEntry card entries with
  | none => rfl
  | some e => exact congrArg some (touchEntry_of (tallyEntry_eq_some hold).2)

/-- The entries of other cards are those of before. -/
theorem mem_map_touchEntry (hraise : ∀ e, (raise e).card = e.card) (h : e.card ≠ card) :
    e ∈ entries.map (touchEntry card raise stamp) ↔ e ∈ entries := by
  rw [List.mem_map]
  constructor
  · rintro ⟨x, hx, rfl⟩
    rw [touchEntry_card hraise] at h
    rwa [touchEntry_of_not h]
  · exact fun he => ⟨e, he, touchEntry_of_not h⟩

end

/-! ### Room in the table (R71, R72) -/

/-- Nothing is evicted from a table in which every card has a local count. -/
theorem evictable_eq_none_iff {entries : List TallyEntry} : evictable entries = none ↔ ∀ e ∈ entries, e.loc ≠ 0 := by
  induction entries with
  | nil => simp [evictable]
  | cons e rest ih =>
    cases hrest : evictable rest with
    | none => simpa [evictable, hrest] using fun _ => ih.mp hrest
    | some x =>
      have hnot : ¬ ∀ y ∈ rest, y.loc ≠ 0 := fun h => by simp [ih.mpr h] at hrest
      simp only [evictable, hrest, List.forall_mem_cons, hnot, and_false, iff_false]
      split <;> nofun

/-- The entry to be evicted has local count 0, and no entry of local count 0 has a smaller stamp. -/
theorem evictable_spec {entries : List TallyEntry} {x : TallyEntry} (h : evictable entries = some x) :
    x ∈ entries ∧ x.loc = 0 ∧ ∀ y ∈ entries, y.loc = 0 → x.stamp ≤ y.stamp := by
  induction entries generalizing x with
  | nil => cases h
  | cons e rest ih =>
    have head (hloc : e.loc = 0) (hleast : ∀ y ∈ rest, y.loc = 0 → e.stamp ≤ y.stamp) :
        e ∈ e :: rest ∧ e.loc = 0 ∧ ∀ y ∈ e :: rest, y.loc = 0 → e.stamp ≤ y.stamp :=
      ⟨List.mem_cons_self, hloc, List.forall_mem_cons.mpr ⟨fun _ => Nat.le_refl _, hleast⟩⟩
    unfold evictable at h
    split at h
    next hnone =>
      split at h
      next hloc => exact Option.some.inj h ▸ head hloc fun y hy hy0 => absurd hy0 (evictable_eq_none_iff.mp hnone y hy)
      · cases h
    next old hold =>
      obtain ⟨hmem, hloc, hleast⟩ := ih hold
      split at h
      next hless => exact Option.some.inj h ▸ head hless.1 fun y hy hy0 => hless.2.le.trans (hleast y hy hy0)
      next hnot =>
        refine Option.some.inj h ▸ ⟨List.mem_cons_of_mem _ hmem, hloc, List.forall_mem_cons.mpr ⟨fun he0 => ?_, hleast⟩⟩
        exact Nat.le_of_not_lt fun hlt => hnot ⟨he0, hlt⟩

section
variable {entries kept : List TallyEntry}

/-- There is no room in a full table in which every card has a local count. -/
theorem roomInTally_eq_none_iff :
    roomInTally entries = none ↔ tallyCapacity ≤ entries.length ∧ ∀ e ∈ entries, e.loc ≠ 0 := by
  unfold roomInTally
  split
  next hlt => simp [hlt]
  next hfull =>
    have hle : tallyCapacity ≤ entries.length := Nat.le_of_not_lt hfull
    split
    next hnone => simpa [hle] using evictable_eq_none_iff.mp hnone
    next x hx =>
      obtain ⟨hmem, hloc, -⟩ := evictable_spec hx
      simp only [reduceCtorEq, hle, true_and, false_iff]
      exact fun h => h x hmem hloc

/-- Room is made by an eviction from a full table, or was there. -/
theorem roomInTally_eq_some (h : roomInTally entries = some kept) :
    (entries.length < tallyCapacity ∧ kept = entries) ∨
    (tallyCapacity ≤ entries.length ∧ ∃ x, evictable entries = some x ∧ kept = entries.filter (fun y => y.card != x.card)) := by
  unfold roomInTally at h
  split at h
  next hlt => exact .inl ⟨hlt, (Option.some.inj h).symm⟩
  next hfull =>
    split at h
    · cases h
    next x hx => exact .inr ⟨Nat.le_of_not_lt hfull, x, hx, (Option.some.inj h).symm⟩

theorem roomInTally_sublist (h : roomInTally entries = some kept) : kept.Sublist entries := by
  rcases roomInTally_eq_some h with ⟨-, rfl⟩ | ⟨-, x, -, rfl⟩
  · exact List.Sublist.refl _
  · exact List.filter_sublist

/-- With room made one more entry fits. -/
theorem roomInTally_length_lt (h : roomInTally entries = some kept) (hcap : entries.length ≤ tallyCapacity) :
    kept.length < tallyCapacity := by
  rcases roomInTally_eq_some h with ⟨hlt, rfl⟩ | ⟨-, x, hx, rfl⟩
  · exact hlt
  · refine Nat.lt_of_lt_of_le ?_ hcap
    exact List.length_filter_lt_length_iff_exists.mpr ⟨x, (evictable_spec hx).1, by simp⟩

/-- Entries that all differ in `key` are the same where that is. -/
theorem eq_of_pairwise_ne {α : Type} {key : TallyEntry → α} (h : entries.Pairwise (fun a b => key a ≠ key b))
    {x y : TallyEntry} (hx : x ∈ entries) (hy : y ∈ entries) (hkey : key x = key y) : x = y := by
  have : Std.Symm (fun a b : TallyEntry => key a ≠ key b) := ⟨fun _ _ h => h.symm⟩
  by_contra hne
  exact h.forall hx hy hne hkey

/-- What stays is all but the entry of smallest stamp among those with local count 0 when the table was full. -/
theorem mem_of_roomInTally (h : roomInTally entries = some kept) (hcap : entries.length ≤ tallyCapacity)
    (once : entries.Pairwise (fun a b => a.card ≠ b.card)) (stamps : entries.Pairwise (fun a b => a.stamp ≠ b.stamp))
    (e : TallyEntry) : e ∈ kept ↔ e ∈ entries ∧
      ¬ (entries.length = tallyCapacity ∧ e.loc = 0 ∧ ∀ y ∈ entries, y.loc = 0 → e.stamp ≤ y.stamp) := by
  rcases roomInTally_eq_some h with ⟨hlt, rfl⟩ | ⟨hfull, x, hx, rfl⟩
  · simp [hlt.ne]
  · obtain ⟨hmem, hloc, hleast⟩ := evictable_spec hx
    rw [List.mem_filter]
    refine and_congr_right fun he => ?_
    by_cases hex : e = x
    · subst hex
      simp [hcap.antisymm hfull, hloc]
      exact hleast
    · have hcard : e.card ≠ x.card := fun h => hex (eq_of_pairwise_ne once he hmem h)
      have hstamp : e.stamp ≠ x.stamp := fun h => hex (eq_of_pairwise_ne stamps he hmem h)
      simp only [bne_iff_ne, ne_eq, hcard, not_false_eq_true, true_iff]
      rintro ⟨-, hloc', hleast'⟩
      exact hstamp ((hleast' x hmem hloc).antisymm (hleast e he hloc'))

end

/-! ### A touch (R71, R72, R74) -/

/-- What a touch for `card` may do to its counts: raised or fresh they stay in their ranges, and the entry is the card's. -/
structure Counting (card : CardNumber) (raise : TallyEntry → TallyEntry) (fresh : Nat → TallyEntry) : Prop where
  sameCard   : ∀ e, (raise e).card = e.card
  loc        : ∀ e, e.loc ≤ 15 → (raise e).loc ≤ 15
  heard      : ∀ e, e.heard ≤ 63 → (raise e).heard ≤ 63
  freshCard  : ∀ stamp, (fresh stamp).card = card
  freshLoc   : ∀ stamp, (fresh stamp).loc ≤ 15
  freshHeard : ∀ stamp, (fresh stamp).heard ≤ 63
  freshStamp : ∀ stamp, (fresh stamp).stamp = stamp

theorem counting_deposit (card : CardNumber) :
    Counting card (fun e => { e with loc := satAdd 15 e.loc 1 }) (fun stamp => ⟨card, 1, 0, stamp⟩) := by
  constructor <;> simp [satAdd]

theorem counting_heard (card : CardNumber) :
    Counting card (fun e => { e with heard := satAdd 63 e.heard 1 }) (fun stamp => ⟨card, 0, 1, stamp⟩) := by
  constructor <;> simp [satAdd]

section
variable {t t' : Tally} {card : CardNumber} {raise : TallyEntry → TallyEntry} {fresh : Nat → TallyEntry}

/-- There is no room for a touch exactly when the card has no entry and none can be evicted for it. -/
theorem Tally.touch_eq_none_iff : t.touch card raise fresh = none ↔
    tallyEntry card t.entries = none ∧ roomInTally t.entries = none := by
  unfold Tally.touch
  cases tallyEntry card t.entries with
  | some e => simp
  | none => cases roomInTally t.entries <;> simp

/-- A touch changes the card's entry, or adds one where there is room. -/
theorem Tally.touch_eq_some (h : t.touch card raise fresh = some t') :
    ((tallyEntry card t.entries).isSome = true ∧ t' = { t with
      entries := t.entries.map (touchEntry card raise t.nextStamp), touches := t.nextStamp }) ∨
    (tallyEntry card t.entries = none ∧ ∃ kept, roomInTally t.entries = some kept ∧
      t' = { t with entries := kept ++ [fresh t.nextStamp], touches := t.nextStamp }) := by
  unfold Tally.touch at h
  cases hold : tallyEntry card t.entries with
  | some e =>
    simp only [hold, Option.isSome_some, if_true] at h
    exact .inl ⟨rfl, (Option.some.inj h).symm⟩
  | none =>
    cases hroom : roomInTally t.entries with
    | none => simp [hold, hroom] at h
    | some kept =>
      simp only [hold, hroom, Option.isSome_none, Bool.false_eq_true, if_false] at h
      exact .inr ⟨rfl, kept, rfl, (Option.some.inj h).symm⟩

theorem Tally.touch_touches (h : t.touch card raise fresh = some t') : t'.touches = t.nextStamp := by
  rcases Tally.touch_eq_some h with ⟨-, rfl⟩ | ⟨-, kept, -, rfl⟩ <;> rfl

theorem Tally.touch_loss (h : t.touch card raise fresh = some t') : t'.loss = t.loss := by
  rcases Tally.touch_eq_some h with ⟨-, rfl⟩ | ⟨-, kept, -, rfl⟩ <;> rfl

/-- After a touch the card's entry is its old one raised, or a fresh one, with the counter's value as its stamp. -/
theorem Tally.touch_entry (counting : Counting card raise fresh) (h : t.touch card raise fresh = some t') :
    tallyEntry card t'.entries = some (match tallyEntry card t.entries with
      | some e => { raise e with stamp := t'.touches }
      | none => fresh t'.touches) := by
  rw [Tally.touch_touches h]
  rcases Tally.touch_eq_some h with ⟨hsome, rfl⟩ | ⟨hnone, kept, hkept, rfl⟩
  · obtain ⟨e, he⟩ := Option.isSome_iff_exists.mp hsome
    simp [tallyEntry_map_touchEntry counting.sameCard, he]
  · have hno : tallyEntry card kept = none := tallyEntry_eq_none_iff.mpr fun e he =>
      tallyEntry_eq_none_iff.mp hnone e ((roomInTally_sublist hkept).subset he)
    rw [hnone]
    rw [tallyEntry] at hno ⊢
    simp [List.find?_append, hno, counting.freshCard]

/-- A touch leaves every entry of another card, but for the one evicted. -/
theorem Tally.mem_touch_of_ne (law : t.Law) (counting : Counting card raise fresh) (h : t.touch card raise fresh = some t')
    {e : TallyEntry} (he : e.card ≠ card) : e ∈ t'.entries ↔ e ∈ t.entries ∧
      ¬ ((tallyEntry card t.entries = none ∧ t.entries.length = tallyCapacity) ∧ e.loc = 0 ∧
        ∀ x ∈ t.entries, x.loc = 0 → e.stamp ≤ x.stamp) := by
  rcases Tally.touch_eq_some h with ⟨hsome, rfl⟩ | ⟨hnone, kept, hkept, rfl⟩
  · have hne : tallyEntry card t.entries ≠ none := Option.isSome_iff_ne_none.mp hsome
    simp [mem_map_touchEntry counting.sameCard he, hne]
  · have hfresh : e ≠ fresh t.nextStamp := fun hef => he (hef ▸ counting.freshCard _)
    simp [hfresh, hnone, mem_of_roomInTally hkept law.capacity law.once law.stamps]

/-- A touch keeps the table within its capacity. -/
theorem Tally.touch_length_le (hcap : t.entries.length ≤ tallyCapacity) (h : t.touch card raise fresh = some t') :
    t'.entries.length ≤ tallyCapacity := by
  rcases Tally.touch_eq_some h with ⟨-, rfl⟩ | ⟨-, kept, hkept, rfl⟩
  · simpa using hcap
  · simpa using roomInTally_length_lt hkept hcap

/-- Below the counter's maximum a touch keeps the table's law. -/
theorem Tally.Law.touch (law : t.Law) (hlt : t.touches < lastTouch) (counting : Counting card raise fresh)
    (h : t.touch card raise fresh = some t') : t'.Law := by
  have hstamp : t.nextStamp = t.touches + 1 := Tally.nextStamp_of_lt hlt
  have htouches : t'.touches = t.touches + 1 := (Tally.touch_touches h).trans hstamp
  have hcap := Tally.touch_length_le law.capacity h
  rcases Tally.touch_eq_some h with ⟨-, rfl⟩ | ⟨hnone, kept, hkept, rfl⟩
  · refine ⟨hcap, ?_, ?_, ?_, t.nextStamp_le⟩
    · exact List.pairwise_map.mpr (law.once.imp fun hcard => by simpa only [touchEntry_card counting.sameCard])
    · simp only [List.forall_mem_map]
      intro e he
      obtain ⟨hloc, hheard, hle⟩ := law.counts e he
      by_cases hcard : e.card = card
      · rw [touchEntry_of hcard]
        exact ⟨counting.loc e hloc, counting.heard e hheard, Nat.le_refl _⟩
      · rw [touchEntry_of_not hcard]
        exact ⟨hloc, hheard, hle.trans (by omega)⟩
    · refine List.pairwise_map.mpr ((law.once.and law.stamps).imp_of_mem fun {x y} hx hy ⟨hcard, hdiff⟩ => ?_)
      have hxle := (law.counts x hx).2.2
      have hyle := (law.counts y hy).2.2
      by_cases hxc : x.card = card
      · have hyc : y.card ≠ card := fun hyc => hcard (hxc.trans hyc.symm)
        rw [touchEntry_of hxc, touchEntry_of_not hyc]
        simp only [hstamp]
        omega
      · by_cases hyc : y.card = card
        · rw [touchEntry_of_not hxc, touchEntry_of hyc]
          simp only [hstamp]
          omega
        · rwa [touchEntry_of_not hxc, touchEntry_of_not hyc]
  · have hsub := roomInTally_sublist hkept
    have hold : ∀ e ∈ kept, e.card ≠ card := fun e he => tallyEntry_eq_none_iff.mp hnone e (hsub.subset he)
    refine ⟨hcap, ?_, ?_, ?_, t.nextStamp_le⟩
    · refine List.pairwise_append.mpr ⟨law.once.sublist hsub, List.pairwise_singleton _ _, ?_⟩
      simpa [counting.freshCard] using hold
    · simp only [List.forall_mem_append, List.forall_mem_singleton]
      refine ⟨fun e he => ?_, counting.freshLoc _, counting.freshHeard _, (counting.freshStamp _).le⟩
      obtain ⟨hloc, hheard, hle⟩ := law.counts e (hsub.subset he)
      exact ⟨hloc, hheard, hle.trans (by omega)⟩
    · refine List.pairwise_append.mpr ⟨law.stamps.sublist hsub, List.pairwise_singleton _ _, ?_⟩
      simp only [List.mem_singleton, forall_eq, counting.freshStamp, hstamp]
      intro e he
      have := (law.counts e (hsub.subset he)).2.2
      omega

end

/-! ### O24 -/

/-- The tally unit takes TALLY NOTICEs alone. -/
theorem taker_tally : (fun r : Received => r.telegram.kind.taker == .tally) = fun r => r.telegram.kind == .tallyNotice := by
  funext r
  cases r.telegram.kind <;> rfl

theorem Node.takingTally_of {n : Node} {r : Received}
    (h : n.line.buffer.find? (fun r => r.telegram.kind == .tallyNotice) = some r) (f : Node → Received → Node) :
    n.taking .tallyNotice f = f (n.withLine { n.line with
      buffer := n.line.buffer.eraseP (fun r => r.telegram.kind == .tallyNotice) }) r := by
  have hkind : r.telegram.kind = .tallyNotice := by simpa using List.find?_some h
  rw [Node.taking_of (r := r) (by rw [oldestOf]; exact taker_tally ▸ h) hkind f, withoutOldest]
  exact congrArg (fun p => f (n.withLine { n.line with buffer := n.line.buffer.eraseP p }) r) taker_tally

/-- A heard notice changes the tally table alone. -/
theorem Node.hearTally_eq (n : Node) (r : Received) : n.hearTally r = n.withTally
    (if field r.telegram.payload 4 1 = n.control.settings.fraction.code ∧ field r.telegram.payload 5 2 = n.clock.day then
      (n.tally.countHeard (BitVec.ofNat 32 (field r.telegram.payload 0 4))).getD n.tally.lose
    else n.tally) := by
  unfold Node.hearTally
  split
  · cases n.tally.countHeard (BitVec.ofNat 32 (field r.telegram.payload 0 4)) <;> rfl
  · rfl

/-- NO ROOM is the answer exactly when a touch finds no room (R70). -/
theorem Tally.knownCount_eq_none_iff {t : Tally} {card : CardNumber} :
    t.knownCount card = none ↔ tallyEntry card t.entries = none ∧ roomInTally t.entries = none := by
  unfold Tally.knownCount
  cases tallyEntry card t.entries with
  | some e => simp
  | none => cases roomInTally t.entries <;> simp

/-- The known count is that of the card's entry, or 0. -/
theorem Tally.knownCount_eq_some {t : Tally} {card : CardNumber} {k : Nat} (h : t.knownCount card = some k) :
    k = ((tallyEntry card t.entries).map (fun e => e.loc + e.heard)).getD 0 := by
  unfold Tally.knownCount at h
  cases hold : tallyEntry card t.entries with
  | some e => simp_all
  | none => cases hroom : roomInTally t.entries <;> simp_all

end Sys2Proof.Machine

/-- Settles O24: a deposit and a notice are each a touch, and the notice is the oldest that the buffer holds. -/
theorem tallyRaisesOneCard : Obligations.TallyRaisesOneCard := by
  refine ⟨fun n card law => ?counts, fun s dt hruns => ⟨fun hwait => ?waits, fun r hrebuilt hr => ?taken⟩⟩
  case counts =>
    have law := n.tallyLaw_iff.mp law
    have hnoRoom : tallyEntry card n.tally.entries = none ∧ roomInTally n.tally.entries = none ↔
        (tallyEntry card n.tally.entries = none ∧ n.tally.entries.length = 384) ∧ ∀ e ∈ n.tally.entries, e.loc ≠ 0 := by
      have hcap : n.tally.entries.length ≤ 384 := law.capacity
      rw [roomInTally_eq_none_iff, and_assoc, ← hcap.ge_iff_eq]
      rfl
    refine ⟨Tally.touch_eq_none_iff.trans hnoRoom, Tally.touch_eq_none_iff.trans hnoRoom,
      Tally.knownCount_eq_none_iff.trans hnoRoom, fun k hk => ⟨Tally.knownCount_eq_some hk, ?_⟩, fun heard t' ht' => ?_⟩
    · rw [Tally.knownCount_eq_some hk]
      cases hold : tallyEntry card n.tally.entries with
      | none => simp
      | some e =>
        obtain ⟨hloc, hheard, -⟩ := law.counts e (tallyEntry_eq_some hold).1
        simp only [Option.map_some, Option.getD_some]
        omega
    · cases heard with
      | true =>
        have hentry := Tally.touch_entry (counting_heard card) ht'
        refine ⟨fun hlt => (Tally.touch_touches ht').trans (Tally.nextStamp_of_lt hlt), ?_, Tally.touch_loss ht', ?_,
          fun e he => Tally.mem_touch_of_ne law (counting_heard card) ht' he⟩
        · exact Tally.touch_touches ht' ▸ n.tally.nextStamp_le
        · rw [hentry]
          cases hold : tallyEntry card n.tally.entries with
          | none => simp
          | some e => simp [satAdd, (tallyEntry_eq_some hold).2]
      | false =>
        have hentry := Tally.touch_entry (counting_deposit card) ht'
        refine ⟨fun hlt => (Tally.touch_touches ht').trans (Tally.nextStamp_of_lt hlt), ?_, Tally.touch_loss ht', ?_,
          fun e he => Tally.mem_touch_of_ne law (counting_deposit card) ht' he⟩
        · exact Tally.touch_touches ht' ▸ n.tally.nextStamp_le
        · rw [hentry]
          cases hold : tallyEntry card n.tally.entries with
          | none => simp
          | some e => simp [satAdd, (tallyEntry_eq_some hold).2]
  case waits =>
    have hexec : exec (.tallyNotice dt) s = .next ⟨if s.node.tally.rebuilt then
        (s.node.advance dt).taking .tallyNotice Node.hearTally else s.node.advance dt, s.pending⟩ :=
      State.perform_station hruns.acts dt _
    rw [hexec, hwait]
    rfl
  case taken =>
    have hexec : exec (.tallyNotice dt) s = .next ⟨if s.node.tally.rebuilt then
        (s.node.advance dt).taking .tallyNotice Node.hearTally else s.node.advance dt, s.pending⟩ :=
      State.perform_station hruns.acts dt _
    rw [hexec, if_pos hrebuilt, Node.takingTally_of (n := s.node.advance dt) hr, Node.hearTally_eq]
    rfl
end

section
/-! The relay and the depot port keep the form of the tables: the relay's queues and its outstanding requests stay within
their bounds (R175, R180). -/

open Sys2Proof Sys2Proof.Machine

namespace Sys2Proof.Machine

/-! ### The relay's outstanding requests (R180) -/

/-- A NO ANSWER leaves the outstanding requests as they are. -/
theorem Node.noAnswer_outstanding (n : Node) (o : Outstanding) : (n.noAnswer o).relay.outstanding = n.relay.outstanding := by
  unfold Node.noAnswer Node.toDepot
  split <;> rfl

/-- A NO ANSWER leaves the street line as it is. -/
theorem Node.noAnswer_line (n : Node) (o : Outstanding) : (n.noAnswer o).line = n.line := by
  unfold Node.noAnswer Node.toDepot
  split <;> rfl

/-- A request created leaves the transmit queue as long as it was. -/
theorem Node.createRequest_queue_length (n : Node) (dest tag : Nat) (kind : Kind) :
    (n.createRequest dest tag kind).line.queue.length = n.line.queue.length := by
  unfold Node.createRequest
  dsimp only [Node.withRelay_line]
  split
  · exact List.length_map _
  · split
    · exact List.length_map _
    · rw [Node.noAnswer_line]
      exact List.length_map _

namespace Node.KeepsForm

section
variable {a n : Node}

/-! ### The relay and the depot (10) -/

theorem countUnknownKind (h : a.KeepsForm n) : a.KeepsForm n.countUnknownKind := h.withLine

theorem countDepotFailure (h : a.KeepsForm n) : a.KeepsForm n.countDepotFailure := h.withRelay

theorem toDepot (h : a.KeepsForm n) (t : Telegram) : a.KeepsForm (n.toDepot t) := by
  unfold Node.toDepot
  split
  next hroom => exact h.withRelay fun hfits => ⟨by simpa using hroom, hfits.2⟩
  · exact h.withRelay

theorem noAnswer (h : a.KeepsForm n) (o : Outstanding) : a.KeepsForm (n.noAnswer o) := h.withRelay.toDepot _

/-- Outstanding requests that are no more than before. -/
theorem withOutstanding (h : a.KeepsForm n) {table : List Outstanding} (ht : table.length ≤ n.relay.outstanding.length) :
    a.KeepsForm (n.withRelay { n.relay with outstanding := table }) :=
  h.withRelay fun hfits => ⟨hfits.1, hfits.2.1, ht.trans hfits.2.2⟩

theorem matchRequest (h : a.KeepsForm n) (t : Telegram) : a.KeepsForm (n.matchRequest t) := by
  unfold Node.matchRequest
  split
  · exact h
  · split
    · exact h
    · refine h.withOutstanding ?_
      split
      · exact (List.length_map _).le
      · exact List.length_filter_le _ _

theorem forwardToDepot (h : a.KeepsForm n) (t : Telegram) : a.KeepsForm (n.forwardToDepot t) :=
  ite ((h.matchRequest t).toDepot t) (h.toDepot t)

theorem setRelayClock (h : a.KeepsForm n) (t : Telegram) : a.KeepsForm (n.setRelayClock t) := ite h.withRelay h

theorem answerRelayStatus (h : a.KeepsForm n) (tag : Nat) : a.KeepsForm (n.answerRelayStatus tag) :=
  (h.withFresh _).toDepot _

theorem relayOwn (h : a.KeepsForm n) (t : Telegram) : a.KeepsForm (n.relayOwn t) := ite (h.setRelayClock t) (h.receive t)

theorem relayTake (h : a.KeepsForm n) (t : Telegram) : a.KeepsForm (n.relayTake t) :=
  ite (h.relayOwn t) (ite (h.forwardToDepot t) h)

theorem fromDepot (h : a.KeepsForm n) (t : Telegram) : a.KeepsForm (n.fromDepot t) := by
  unfold Node.fromDepot
  split
  next hroom =>
    have queued := h.withRelay (x := { n.relay with
      depotToLine := n.relay.depotToLine ++ [t]
      rts := rtsAt (n.relay.depotToLine.length + 1) n.relay.rts }) fun hfits => ⟨hfits.1, by simpa using hroom, hfits.2.2⟩
    exact ite (queued.setRelayClock t) queued
  · exact h.withRelay

theorem huntDepot (h : a.KeepsForm n) : a.KeepsForm n.huntDepot := h.withRelay

theorem discardFrame (h : a.KeepsForm n) : a.KeepsForm n.discardFrame := h.countDepotFailure.huntDepot

theorem depotTelegram (h : a.KeepsForm n) (bytes : List Byte) : a.KeepsForm (n.depotTelegram bytes) := by
  refine ite ?_ h.countDepotFailure
  split
  · exact h.countUnknownKind
  · exact ite h.countUnknownKind (ite (ite (h.relayOwn _) h.countUnknownKind) (h.fromDepot _))

theorem depotChar (h : a.KeepsForm n) (c : HeardChar) : a.KeepsForm (n.depotChar c) := by
  unfold Node.depotChar
  split
  · exact ite h.withRelay h
  · refine ite h.discardFrame ?_
    split
    · exact ite h.withRelay h.discardFrame
    · exact ite h.withRelay (ite (h.huntDepot.depotTelegram _) h.discardFrame)

theorem dropStaleFrame (h : a.KeepsForm n) : a.KeepsForm n.dropStaleFrame := by
  unfold Node.dropStaleFrame
  split
  · exact h
  · exact ite h.discardFrame h

theorem depotChars (h : a.KeepsForm n) (chars : List HeardChar) : a.KeepsForm (n.depotChars chars) :=
  foldl (fun c hm => hm.depotChar c) chars h.dropStaleFrame

/-- A request created with eight held takes the place of the oldest (R180). -/
theorem createRequest (h : a.KeepsForm n) (dest tag : Nat) (kind : Kind) : a.KeepsForm (n.createRequest dest tag kind) := by
  have hrest : (withoutRequest dest tag n.relay.outstanding).length ≤ n.relay.outstanding.length := List.length_filter_le _ _
  have abandoned := h.withLine (x := { n.line with
    queue := n.line.queue.map (fun e => if e.owner = .relayRequest dest tag then { e with owner := .abandoned } else e) })
    fun hfits => ⟨by simpa using hfits.1, hfits.2⟩
  unfold Node.createRequest
  by_cases hroom : (withoutRequest dest tag n.relay.outstanding).length < outstandingCapacity
  · simp only [Node.withLine_relay, hroom, if_true]
    refine abandoned.withRelay fun hfits => ⟨hfits.1, hfits.2.1, ?_⟩
    simpa using hroom
  · simp only [Node.withLine_relay, hroom, if_false]
    refine withRelay ?_ fun hfits => ⟨hfits.1, hfits.2.1, ?_⟩
    · split
      · exact abandoned
      · exact abandoned.noAnswer _
    · have hheld : n.relay.outstanding.length ≤ outstandingCapacity := by
        have hle := hfits.2.2
        split at hle
        · exact hle
        · rwa [Node.noAnswer_outstanding] at hle
      simp only [List.length_append, List.length_singleton, List.length_drop]
      have hcap : outstandingCapacity = 8 := rfl
      omega

theorem requestSent (h : a.KeepsForm n) (dest tag : Nat) : a.KeepsForm (n.requestSent dest tag) :=
  h.withOutstanding (List.length_map _).le

theorem requestFails (h : a.KeepsForm n) (o : Outstanding) : a.KeepsForm (n.requestFails o) :=
  (h.withOutstanding (List.length_filter_le _ _)).noAnswer o

theorem requestDropped (h : a.KeepsForm n) (dest tag : Nat) : a.KeepsForm (n.requestDropped dest tag) := by
  unfold Node.requestDropped
  split
  · exact h
  · exact h.requestFails _

theorem offerFromDepot (h : a.KeepsForm n) : a.KeepsForm n.offerFromDepot := by
  unfold Node.offerFromDepot
  split
  · exact h
  next t rest hqueue =>
    split
    next hmay =>
      have sent := h.withRelay (x := { n.relay with depotToLine := rest, rts := rtsAt rest.length n.relay.rts }) fun hfits => by
        refine ⟨hfits.1, ?_, hfits.2.2⟩
        have := hfits.2.1
        rw [hqueue] at this
        exact (Nat.le_succ _).trans this
      have hroom (dest tag : Nat) (kind : Kind) : ((n.withRelay
          { n.relay with depotToLine := rest, rts := rtsAt rest.length n.relay.rts }).createRequest dest tag kind).queueHasRoom =
          true := by
        rw [Node.queueHasRoom, Node.createRequest_queue_length]
        exact hmay.2
      exact ite ((sent.createRequest _ _ _).enqueue (hroom _ _ _) _ _) (sent.enqueue hmay.2 _ _)
    · exact h

theorem frameTimeout (h : a.KeepsForm n) : a.KeepsForm n.frameTimeout := by
  unfold Node.frameTimeout
  split
  · exact h
  · exact (h.reach _).discardFrame

theorem beginFrame (h : a.KeepsForm n) (cts : Bool) : a.KeepsForm (n.beginFrame cts) := ite h.withRelay h

theorem endFrame (h : a.KeepsForm n) : a.KeepsForm n.endFrame :=
  ite (h.withRelay fun hfits => ⟨(List.drop_sublist _ _).length_le.trans hfits.1, hfits.2⟩) h

theorem answerExpiry (h : a.KeepsForm n) : a.KeepsForm n.answerExpiry := by
  unfold Node.answerExpiry
  split
  · exact h
  · exact (h.reach _).requestFails _

theorem originate (h : a.KeepsForm n) : a.KeepsForm n.originate := by
  unfold Node.originate
  split
  · exact ((h.reach _).offerOnly _ _).withRelay
  · exact h

end

end Node.KeepsForm

end Sys2Proof.Machine
end

section
/-! What the commands of the store, the card table and the deposit log leave of the lists, the tally table and the day's
totals. -/

open Sys2Proof Sys2Proof.Machine

namespace Sys2Proof.Machine

/-- The lists stay within their bounds, and the tally table and the day's totals are as they were. -/
structure Node.KeepsTotals (a n : Node) : Prop where
  lists : a.ListsFit → n.ListsFit
  tally : n.tally = a.tally
  total : n.log.accounting.total = a.log.accounting.total
  count : n.log.accounting.count = a.log.accounting.count

theorem Node.KeepsTotals.refl (n : Node) : n.KeepsTotals n := ⟨id, rfl, rfl, rfl⟩

theorem Node.KeepsForm.totals {a n : Node} (h : a.KeepsForm n) : a.KeepsTotals n := ⟨h.lists, h.tally, h.total, h.count⟩

namespace Node.KeepsTotals

variable {a n : Node}

theorem trans {m : Node} (h : a.KeepsTotals n) (k : n.KeepsTotals m) : a.KeepsTotals m :=
  ⟨k.lists ∘ h.lists, k.tally.trans h.tally, k.total.trans h.total, k.count.trans h.count⟩

theorem form {m : Node} (h : a.KeepsTotals n) (k : n.KeepsForm m) : a.KeepsTotals m := h.trans k.totals

theorem withStore (h : a.KeepsTotals n) (x : Store) : a.KeepsTotals (n.withStore x) := ⟨h.lists, h.tally, h.total, h.count⟩

theorem withCards (h : a.KeepsTotals n) (x : Cards) : a.KeepsTotals (n.withCards x) := ⟨h.lists, h.tally, h.total, h.count⟩

theorem withLog (h : a.KeepsTotals n) {x : Log} (htotal : x.accounting.total = n.log.accounting.total := by rfl)
    (hcount : x.accounting.count = n.log.accounting.count := by rfl) : a.KeepsTotals (n.withLog x) :=
  ⟨h.lists, h.tally, htotal.trans h.total, hcount.trans h.count⟩

theorem ite {m k : Node} {c : Prop} [Decidable c] (hm : a.KeepsTotals m) (hk : a.KeepsTotals k) :
    a.KeepsTotals (if c then m else k) := by
  split
  · exact hm
  · exact hk

/-! ### The rows of the log (R89, R92, R95) -/

theorem placeRow (h : a.KeepsTotals n) (region : Region) (row : Nat) (bytes : List Byte) :
    a.KeepsTotals (n.placeRow region row bytes) := h.withStore _

theorem placeLifetime (h : a.KeepsTotals n) (bytes : List Byte) : a.KeepsTotals (n.placeLifetime bytes) :=
  ite (h.placeRow _ _ _).withLog h

theorem placeAccounting (h : a.KeepsTotals n) : a.KeepsTotals n.placeAccounting :=
  ite ((h.placeRow _ _ _).withLog.placeLifetime _) h

theorem placeWaiting (h : a.KeepsTotals n) : a.KeepsTotals n.placeWaiting := by
  unfold Node.placeWaiting
  split
  · exact h
  · exact h.placeAccounting
  · exact h.placeLifetime _

theorem releaseFreed (h : a.KeepsTotals n) (taken : Bool) : a.KeepsTotals (n.releaseFreed taken) :=
  ite h (h.withStore _)

theorem giveFreed (h : a.KeepsTotals n) (taken : Bool) : a.KeepsTotals (n.giveFreed taken) :=
  ite (h.withStore _) (h.releaseFreed taken)

theorem commitRow (h : a.KeepsTotals n) (w : RowWrite) : a.KeepsTotals (n.commitRow w) := ite h.withLog h

theorem appendRecord (h : a.KeepsTotals n) (e : LogEntry) : a.KeepsTotals (n.appendRecord e) := by
  unfold Node.appendRecord
  exact (h.withLog.placeRow _ _ _).placeWaiting

theorem overflowItem (h : a.KeepsTotals n) (e : LogEntry) : a.KeepsTotals (n.overflowItem e) := by
  unfold Node.overflowItem
  split
  · exact h.withLog.placeWaiting
  · exact h.withLog.placeWaiting
  · exact h.withLog

theorem writeAccounting (h : a.KeepsTotals n) : a.KeepsTotals n.writeAccounting := ite (h.placeAccounting.releaseFreed _) h

theorem writeMark (h : a.KeepsTotals n) : a.KeepsTotals n.writeMark := by
  unfold Node.writeMark
  split
  · exact h
  · exact ite ((h.placeRow _ _ _).withLog.releaseFreed _) h

end Node.KeepsTotals

/-! ### The oldest item of the append list (R95, R98) -/

/-- The node once the item has left the append list and is appended, or counted, or lost. -/
def Node.itemTaken (n : Node) (e : LogEntry) (rest : List LogEntry) : Node :=
  let m := n.withLog { n.log with appendList := rest, markAhead := n.log.markAhead - 1 }
  if m.log.isFull || e.isOverflow then m.overflowItem e else m.appendRecord e

theorem Node.appendOldest_of {n : Node} {e : LogEntry} {rest : List LogEntry} (h : n.log.appendList = e :: rest)
    (hready : n.logReady = true) : n.appendOldest =
      (if rest.any LogEntry.isRestart then n.itemTaken e rest else (n.itemTaken e rest).endRebuild).releaseFreed
        n.entriesTaken := by
  simp [Node.appendOldest, h, hready, Node.itemTaken]

/-- With nothing in the append list, or while no write may begin, nothing is appended. -/
theorem Node.appendOldest_waits {n : Node} (h : n.log.appendList = [] ∨ n.logReady = false) : n.appendOldest = n := by
  unfold Node.appendOldest
  split
  · rfl
  next hlist => rw [h.resolve_left (by simp [hlist])]; rfl

/-- Without an append the node is as it was; else the oldest item is taken. -/
theorem Node.appendOldest_cases (n : Node) : n.appendOldest = n ∨ ∃ e rest, n.log.appendList = e :: rest ∧
    n.logReady = true ∧ n.appendOldest =
      (if rest.any LogEntry.isRestart then n.itemTaken e rest else (n.itemTaken e rest).endRebuild).releaseFreed
        n.entriesTaken := by
  cases hlist : n.log.appendList with
  | nil => exact .inl (Node.appendOldest_waits (.inl hlist))
  | cons e rest =>
    cases hready : n.logReady with
    | false => exact .inl (Node.appendOldest_waits (.inr hready))
    | true => exact .inr ⟨e, rest, rfl, rfl, Node.appendOldest_of hlist hready⟩

theorem Node.KeepsTotals.itemTaken {a n : Node} (h : a.KeepsTotals n) (e : LogEntry) (rest : List LogEntry) :
    a.KeepsTotals (n.itemTaken e rest) :=
  ite (h.withLog.overflowItem e) (h.withLog.appendRecord e)

/-! ### The card table's operations (R29 to R36) -/

section
variable {a n m : Node}

theorem Node.KeepsForm.updateFault (h : a.KeepsForm n) (index : Nat) (card : CardNumber) (reason : FaultReason) :
    a.KeepsForm (n.updateFault index card reason) := h.offerOnly _ _

theorem Node.KeepsForm.updateLeaves (h : a.KeepsForm n) : a.KeepsForm n.updateLeaves := by
  unfold Node.updateLeaves
  split
  · exact h
  · exact ite (h.taken _) h

theorem Node.KeepsTotals.updateLeaves (h : a.KeepsTotals n) : a.KeepsTotals n.updateLeaves :=
  h.form (Node.KeepsForm.refl n).updateLeaves

theorem Node.KeepsTotals.settleUpdate (h : a.KeepsTotals n) (u : CardUpdate) : a.KeepsTotals (n.settleUpdate u) := by
  unfold Node.settleUpdate
  split
  · exact (h.withCards _).updateLeaves.withCards _
  · exact ((h.withCards _).updateLeaves.withCards _).form ((Node.KeepsForm.refl _).updateFault _ _ _)
  · exact h.withCards _

theorem Node.KeepsTotals.takeUpdate (h : a.KeepsTotals n) : a.KeepsTotals n.takeUpdate := by
  unfold Node.takeUpdate
  split
  · exact h.settleUpdate _
  · exact h

theorem Node.KeepsTotals.workClear (h : a.KeepsTotals n) (op : CardOp) (phase : TablePhase) :
    a.KeepsTotals (n.workClear op phase) := by
  rcases n.workClear_cases op phase with e | ⟨-, rest, e⟩ <;> rw [e]
  · exact h
  · exact h.updateLeaves.withCards _

theorem Node.KeepsTotals.clearRow (h : a.KeepsTotals n) : a.KeepsTotals n.clearRow := by
  unfold Node.clearRow
  split
  · exact ite ((h.placeRow _ _ _).withCards _) h
  · exact h

theorem Node.KeepsTotals.resumeHeld (h : a.KeepsTotals n) : a.KeepsTotals n.resumeHeld := by
  unfold Node.resumeHeld
  split
  · exact h
  · exact h.settleUpdate _

theorem Node.KeepsTotals.clearProgrammed (h : a.KeepsTotals n) (w : RowWrite) : a.KeepsTotals (n.clearProgrammed w) := by
  rcases n.clearProgrammed_cases w with e | ⟨-, e⟩ | ⟨-, e⟩ <;> rw [e]
  · exact h
  · exact (h.withCards _).resumeHeld
  · exact (h.withCards _).resumeHeld

theorem Node.KeepsTotals.programEnds (h : a.KeepsTotals n) : a.KeepsTotals n.programEnds := by
  unfold Node.programEnds
  split
  · exact (((((h.form ((Node.KeepsForm.refl n).reach _)).withStore _).commitRow _).clearProgrammed _).placeWaiting).giveFreed _
  · exact h

theorem Node.KeepsTotals.cardScanEnd (h : a.KeepsTotals n) : a.KeepsTotals n.cardScanEnd :=
  ite ((h.withCards _).form (Node.KeepsForm.refl _).resumeEvaluation.evaluateStart.pressTrigger) h

/-- What an operation of the card table does before the next is settled: when it changes a row, the table changes and one row
write is placed; else at most an UPDATE FAULT is offered. -/
structure Node.WorksOp (n : Node) (changes : Bool) (m : Node) : Prop where
  totals : n.KeepsTotals m
  work   : n.log.hasWork = true → m.log.hasWork = true
  same   : changes = false → m.store = n.store
  placed : changes = true → ∃ w : RowWrite, w.region.isLog = false ∧ m.store = n.store.place n.now w

theorem Node.WorksOp.of_form (h : n.KeepsForm m) : n.WorksOp false m := ⟨h.totals, h.work, fun _ => h.store, nofun⟩

theorem Node.WorksOp.of_row (x : Cards) {w : RowWrite} (hw : w.region.isLog = false) :
    n.WorksOp true ((n.withCards x).withStore (n.store.place n.now w)) :=
  ⟨((Node.KeepsTotals.refl n).withCards x).withStore _, id, nofun, fun _ => ⟨w, hw, rfl⟩⟩

variable {index : Nat} {op : CardOp}

theorem Node.workAdd_works (h : n.workAdd index op = some m) : n.WorksOp (n.cards.changesRow op) m := by
  cases op with
  | add number cls status rights tariff =>
    have fault (reason : FaultReason) := (Node.KeepsForm.refl n).updateFault index number reason
    cases hr : addRecord number cls status rights tariff with
    | none =>
      obtain rfl := Option.some.inj (Node.workAdd_malformed hr ▸ h)
      simpa [Cards.changesRow, hr] using Node.WorksOp.of_form (fault _)
    | some r =>
      cases hs : n.cards.slotFor number with
      | none =>
        obtain rfl := Option.some.inj (Node.workAdd_full hr hs ▸ h)
        simpa [Cards.changesRow, hr, hs] using Node.WorksOp.of_form (fault _)
      | some slot =>
        obtain rfl := Option.some.inj (Node.workAdd_of hr hs ▸ h)
        simp only [Cards.changesRow, hr, hs]
        exact .of_row _ rfl
  | _ => cases h

theorem Node.workRemove_works (h : n.workRemove index op = some m) : n.WorksOp (n.cards.changesRow op) m := by
  cases op with
  | remove number =>
    cases hs : slotHolding n.cards.slots number with
    | none =>
      obtain rfl := Option.some.inj (Node.workRemove_absent hs ▸ h)
      simpa [Cards.changesRow, hs] using Node.WorksOp.of_form (.refl n)
    | some s =>
      obtain rfl := Option.some.inj (Node.workRemove_of hs ▸ h)
      simp only [Cards.changesRow, hs]
      exact .of_row _ rfl
  | _ => cases h

theorem Node.workRevokeAdd_works (h : n.workRevokeAdd index op = some m) : n.WorksOp (n.cards.changesRow op) m := by
  cases op with
  | revokeAdd number =>
    cases hheld : n.cards.revoked.any (fun p => p.2 == number) with
    | true =>
      obtain rfl := Option.some.inj (Node.workRevokeAdd_held hheld ▸ h)
      simpa [Cards.changesRow, hheld] using Node.WorksOp.of_form (.refl n)
    | false =>
      cases hs : lowestFree n.cards.revoked 0 128 with
      | none =>
        obtain rfl := Option.some.inj (Node.workRevokeAdd_full hheld hs ▸ h)
        simpa [Cards.changesRow, hheld, hs, revocationPositions] using
          Node.WorksOp.of_form ((Node.KeepsForm.refl n).updateFault index number .revocationFull)
      | some position =>
        obtain rfl := Option.some.inj (Node.workRevokeAdd_of hheld hs ▸ h)
        simp only [Cards.changesRow, hheld, hs, revocationPositions]
        exact .of_row _ rfl
  | _ => cases h

theorem Node.workRevokeRemove_works (h : n.workRevokeRemove index op = some m) : n.WorksOp (n.cards.changesRow op) m := by
  cases op with
  | revokeRemove number =>
    cases hs : n.cards.revoked.find? (fun p => p.2 == number) with
    | none =>
      obtain rfl := Option.some.inj (Node.workRevokeRemove_absent hs ▸ h)
      have hno : n.cards.changesRow (.revokeRemove number) = false := by
        simpa [Cards.changesRow] using hs
      exact hno ▸ .of_form (.refl n)
    | some p =>
      obtain rfl := Option.some.inj (Node.workRevokeRemove_of hs ▸ h)
      have hyes : n.cards.changesRow (.revokeRemove number) = true :=
        List.any_eq_true.mpr ⟨p, List.mem_of_find?_eq_some hs, List.find?_some (p := fun p : Nat × CardNumber => p.2 == number) hs⟩
      exact hyes ▸ .of_row _ rfl
  | _ => cases h

/-- Working the operation at the front, if it is not left waiting (R29, R89). -/
theorem Node.workOp_works (n : Node) {f : Node → Nat → CardOp → Option Node}
    (hf : ∀ {m : Node} {index : Nat} {op : CardOp}, f n index op = some m → n.WorksOp (n.cards.changesRow op) m) :
    n.workOp f = n ∨ ∃ index op rest buffered m, n.cards.phase = .opened ∧
      n.cards.update = some ⟨(index, op) :: rest, buffered⟩ ∧ (n.cards.changesRow op = true → n.cardsAdmitted = true) ∧
      n.WorksOp (n.cards.changesRow op) m ∧ n.workOp f = m.settleUpdate ⟨rest, buffered⟩ := by
  by_cases hp : n.cards.phase = .opened
  · rcases hu : n.cards.update with _ | ⟨_ | ⟨⟨index, op⟩, rest⟩, buffered⟩
    · simp [Node.workOp, hp, hu]
    · simp [Node.workOp, hp, hu]
    · by_cases hwait : n.cards.changesRow op = true ∧ n.cardsAdmitted = false
      · exact .inl (Node.workOp_waits hp hu hwait.1 hwait.2)
      · cases hm : f n index op with
        | none => simp [Node.workOp, hp, hu, hm]
        | some m =>
          have hready : n.cards.changesRow op = false ∨ n.cardsAdmitted = true := by
            cases hc : n.cards.changesRow op <;> simp_all
          exact .inr ⟨index, op, rest, buffered, m, hp, rfl, fun hc => hready.resolve_left (by simp [hc]), hf hm,
            Node.workOp_of hp hu hready hm⟩
  · left
    unfold Node.workOp
    split
    · contradiction
    · rfl

theorem Node.KeepsTotals.workOp (h : a.KeepsTotals n) {f : Node → Nat → CardOp → Option Node}
    (hf : ∀ {m : Node} {index : Nat} {op : CardOp}, f n index op = some m → n.WorksOp (n.cards.changesRow op) m) :
    a.KeepsTotals (n.workOp f) := by
  rcases n.workOp_works hf with e | ⟨_, _, _, _, m, -, -, -, works, e⟩ <;> rw [e]
  · exact h
  · exact (h.trans works.totals).settleUpdate _

end

end Sys2Proof.Machine
end

section
/-! The street line keeps the form of the tables: the transmit queue and the receive buffer stay within their bounds (R138,
R145). -/

open Sys2Proof Sys2Proof.Machine

namespace Sys2Proof.Machine

namespace Node.KeepsForm

section
variable {a n : Node}

/-! ### The street line (07) -/

theorem receptionFails (h : a.KeepsForm n) : a.KeepsForm n.receptionFails := ite h.withLine h

theorem fixPolarity (h : a.KeepsForm n) (p : Polarity) : a.KeepsForm (n.fixPolarity p) :=
  h.withLine.callOffer

theorem enterProvisional (h : a.KeepsForm n) : a.KeepsForm n.enterProvisional :=
  h.withLine.callOffer

theorem takeCandidate (h : a.KeepsForm n) : a.KeepsForm n.takeCandidate := by
  refine ite ?_ h
  split
  · exact h
  · dsimp only
    split
    · exact (h.draw 4).withLine
    · exact ((h.draw 4).draw _).withLine

theorem lineIdle (h : a.KeepsForm n) : a.KeepsForm n.lineIdle :=
  ite h ((ite h.receptionFails h).withLine.takeCandidate)

theorem receptionBegins (h : a.KeepsForm n) : a.KeepsForm n.receptionBegins := ite h h.withLine

theorem beginSending (h : a.KeepsForm n) (age : Nat) (taken : Telegram) : a.KeepsForm (n.beginSending age taken) := by
  rcases n.beginSending_cases age taken with ⟨-, e⟩ | ⟨-, e⟩ <;> rw [e]
  · exact h.withLine fun hfits => ⟨by simpa using hfits.1, hfits.2⟩
  · exact h.withLine

theorem tellDropped (h : a.KeepsForm n) (e : QueueEntry) : a.KeepsForm (n.tellDropped e) := by
  unfold Node.tellDropped
  split
  · exact ite h.claimDropped h
  · exact h.harvestFinished
  · exact h.answerFinished
  · exact h.requestDropped _ _
  · exact h

theorem tellSent (h : a.KeepsForm n) (e : QueueEntry) (supplyLow : Bool) : a.KeepsForm (n.tellSent e supplyLow) := by
  unfold Node.tellSent
  split
  · exact ite (h.claimSent supplyLow) h
  · exact h.harvestFinished
  · exact h.answerFinished
  · exact h.requestSent _ _
  · exact h

theorem leaveQueue (h : a.KeepsForm n) (e : QueueEntry) : a.KeepsForm (n.leaveQueue e) :=
  (h.withLine (x := { n.line with queue := withoutAge e.age n.line.queue })
    fun hfits => ⟨(List.length_filter_le _ _).trans hfits.1, hfits.2⟩).admitWaiting

theorem dropCollided (h : a.KeepsForm n) (e : QueueEntry) : a.KeepsForm (n.dropCollided e) :=
  (h.withLine.leaveQueue e).tellDropped e

theorem waitAgain (h : a.KeepsForm n) (e : QueueEntry) : a.KeepsForm (n.waitAgain e) :=
  h.withLine fun hfits => ⟨by simpa using hfits.1, hfits.2⟩

theorem collide (h : a.KeepsForm n) : a.KeepsForm n.collide := by
  unfold Node.collide
  split
  · have stopped := h.withLine (x := { n.line with transmitter := .idle, receiver := .receiving })
    exact ite (stopped.leaveQueue _) (ite (stopped.dropCollided _) (stopped.waitAgain _))
  · exact h

theorem sent (h : a.KeepsForm n) (supplyLow : Bool) : a.KeepsForm (n.sent supplyLow) := by
  unfold Node.sent
  split
  · exact (h.withLine.leaveQueue _).tellSent _ _
  · exact h

theorem dispatch (h : a.KeepsForm n) (t : Telegram) : a.KeepsForm (n.dispatch t) := by
  unfold Node.dispatch
  split
  · exact h
  · exact ite (h.receive t) h
  · split
    · exact ite (h.receive t) h
    · exact h.relayTake t

theorem takeGood (h : a.KeepsForm n) (bytes : List Byte) : a.KeepsForm (n.takeGood bytes) := by
  unfold Node.takeGood
  split
  · exact h.countUnknownKind
  · exact ite h.withLine (h.dispatch _)

theorem takeAdopted (h : a.KeepsForm n) (good : Option (List Byte)) : a.KeepsForm (n.takeAdopted good) := by
  cases good with
  | none => exact h.withLine
  | some bytes => exact h.takeGood bytes

theorem takeUndetected (h : a.KeepsForm n) (normal inverted : Option (List Byte)) :
    a.KeepsForm (n.takeUndetected normal inverted) := by
  unfold Node.takeUndetected
  split
  · exact (h.fixPolarity _).takeGood _
  · exact (h.fixPolarity _).takeGood _
  · exact h

theorem takeProvisional (h : a.KeepsForm n) (normal inverted : Option (List Byte)) :
    a.KeepsForm (n.takeProvisional normal inverted) := by
  unfold Node.takeProvisional
  split
  · exact (h.fixPolarity _).takeGood _
  · exact ite h.withLine ((h.fixPolarity _).takeGood _)
  · exact h.withLine

theorem receptionEnds (h : a.KeepsForm n) (normal inverted : List HeardChar) : a.KeepsForm (n.receptionEnds normal inverted) := by
  refine ite h ?_
  have heard := h.withLine (x := { n.line with receiver := .disregarding, transmitter := n.line.transmitter.heard })
  dsimp only
  split
  · exact heard.takeUndetected _ _
  · exact heard.takeProvisional _ _
  · exact heard.takeAdopted _
  · exact heard.takeAdopted _

theorem deferEnd (h : a.KeepsForm n) : a.KeepsForm n.deferEnd := by
  unfold Node.deferEnd
  split
  · exact (h.reach _).beginSending _ _
  · exact h

theorem silenceExpiry (h : a.KeepsForm n) : a.KeepsForm n.silenceExpiry := by
  unfold Node.silenceExpiry
  split
  · exact (h.reach _).enterProvisional
  · exact h

theorem correctionExpiry (h : a.KeepsForm n) : a.KeepsForm n.correctionExpiry := by
  unfold Node.correctionExpiry
  split
  · exact (h.reach _).fixPolarity _
  · exact h

end

end Node.KeepsForm

end Sys2Proof.Machine
end

section
/-! O56: what every command keeps of the capacities, the tally table's law, the store's form and the entries kept of the
staging queue. -/

open Sys2Proof Sys2Proof.Machine

namespace Sys2Proof.Machine

/-! ### The rebuild (R76) -/

/-- A record of the rebuild is counted, or lost for want of room, or passed over. -/
theorem rebuildRecord_cases (day : Nat) (t : Tally) (r : LogRecord) :
    (∃ card, t.countDeposit card = some (rebuildRecord day t r)) ∨ rebuildRecord day t r = t.lose ∨
      rebuildRecord day t r = t := by
  unfold rebuildRecord
  split
  next card _ _ _ _ _ =>
    split
    · split
      next t' ht' => exact .inl ⟨card, ht'⟩
      · exact .inr (.inl rfl)
    · exact .inr (.inr rfl)
  · exact .inr (.inr rfl)

/-- The rebuild keeps the table within its capacity. -/
theorem rebuild_length_le (day : Nat) (records : List LogRecord) {t : Tally} (h : t.entries.length ≤ tallyCapacity) :
    (records.foldl (rebuildRecord day) t).entries.length ≤ tallyCapacity := by
  induction records generalizing t with
  | nil => exact h
  | cons r rest ih =>
    refine ih ?_
    rcases rebuildRecord_cases day t r with ⟨card, hcount⟩ | e | e
    · exact Tally.touch_length_le h hcount
    · rw [e]; exact h
    · rw [e]; exact h

/-- The rebuild keeps the table's law while the touch counter stays short of its maximum, and touches once for a record. -/
theorem Tally.Law.rebuild (day : Nat) (records : List LogRecord) {t : Tally} (law : t.Law)
    (h : t.touches + records.length ≤ lastTouch) : (records.foldl (rebuildRecord day) t).Law ∧
      (records.foldl (rebuildRecord day) t).touches ≤ t.touches + records.length := by
  induction records generalizing t with
  | nil => exact ⟨law, Nat.le_refl _⟩
  | cons r rest ih =>
    rw [List.length_cons] at h ⊢
    have hstep : (rebuildRecord day t r).Law ∧ (rebuildRecord day t r).touches ≤ t.touches + 1 := by
      rcases rebuildRecord_cases day t r with ⟨card, hcount⟩ | e | e
      · have hlt : t.touches < lastTouch := by omega
        refine ⟨law.touch hlt (counting_deposit card) hcount, ?_⟩
        rw [Tally.touch_touches hcount, Tally.nextStamp_of_lt hlt]
      · rw [e]
        exact ⟨law.congr rfl rfl, Nat.le_succ _⟩
      · rw [e]
        exact ⟨law, Nat.le_succ _⟩
    obtain ⟨hlaw, hle⟩ := ih hstep.1 (by omega)
    exact ⟨hlaw, by rw [List.foldl_cons]; omega⟩

section
variable {n : Node}

theorem Node.tallyInUse_length_le (h : n.tally.entries.length ≤ tallyCapacity) :
    n.tallyInUse.entries.length ≤ tallyCapacity := by
  rcases n.tallyInUse_cases with ⟨-, -, e⟩ | ⟨-, e⟩ <;> rw [e]
  · exact rebuild_length_le _ _ h
  · exact h

theorem Node.tallyInUse_law (law : n.tally.Law) (h : n.tally.touches + n.log.held.length ≤ lastTouch) :
    n.tallyInUse.Law ∧ n.tallyInUse.touches ≤ n.tally.touches + n.log.held.length := by
  rcases n.tallyInUse_cases with ⟨-, -, e⟩ | ⟨-, e⟩ <;> rw [e]
  · obtain ⟨hlaw, hle⟩ := law.rebuild n.clock.day n.log.held h
    exact ⟨hlaw.congr rfl rfl, hle⟩
  · exact ⟨law, Nat.le_add_right _ _⟩

theorem Node.tallyCounted_length_le (h : n.tally.entries.length ≤ tallyCapacity) (a : Acceptance) :
    (n.tallyCounted a).entries.length ≤ tallyCapacity := by
  unfold Node.tallyCounted
  cases hcount : n.tallyInUse.countDeposit a.card with
  | none => exact Node.tallyInUse_length_le h
  | some t => exact Tally.touch_length_le (Node.tallyInUse_length_le h) hcount

theorem Node.tallyCounted_law (law : n.tally.Law) (h : n.tally.touches + n.log.held.length < lastTouch) (a : Acceptance) :
    (n.tallyCounted a).Law := by
  obtain ⟨hlaw, hle⟩ := Node.tallyInUse_law law h.le
  unfold Node.tallyCounted
  cases hcount : n.tallyInUse.countDeposit a.card with
  | none => exact hlaw
  | some t => exact hlaw.touch (hle.trans_lt h) (counting_deposit a.card) hcount

end

/-! ### The entries kept of the staging queue (R89) -/

/-- The part of the law of the freed entries that does not speak of the log's work. -/
structure Node.FreedRoom (n : Node) : Prop where
  room  : n.store.staging.length + n.store.forLog + n.store.forCards ≤ stagingCapacity
  cards : n.store.forCards ≤ n.cards.rowsWaiting

section
variable {n m : Node}

theorem Node.FreedLaw.freedRoom (h : n.FreedLaw) : n.FreedRoom := ⟨h.room, h.cards⟩

/-- The law speaks of the store, the card table and whether the log has something to write. -/
theorem Node.FreedLaw.congr (h : n.FreedLaw) (hstore : m.store = n.store) (hcards : m.cards = n.cards)
    (hwork : n.log.hasWork = true → m.log.hasWork = true) : m.FreedLaw := by
  refine ⟨?_, ?_, ?_⟩ <;> rw [hstore]
  · exact h.room
  · exact hwork ∘ h.log
  · rw [hcards]; exact h.cards

/-- With no entry kept for the card table its rows do not matter. -/
theorem Node.FreedLaw.of_none (h : n.FreedLaw) (hnone : n.store.forCards = 0) (hstore : m.store = n.store)
    (hwork : n.log.hasWork = true → m.log.hasWork = true) : m.FreedLaw := by
  refine ⟨?_, ?_, ?_⟩ <;> rw [hstore]
  · exact h.room
  · exact hwork ∘ h.log
  · rw [hnone]; exact Nat.zero_le _

/-- Under the law the log's entries are those kept for it. -/
theorem Node.FreedLaw.entriesForLog (h : n.FreedLaw) : n.entriesForLog = n.store.forLog := by
  unfold Node.entriesForLog
  split
  · rfl
  next hidle => exact (Nat.eq_zero_of_not_pos fun hpos => hidle (h.log hpos)).symm

/-- Releasing what was kept for the log gives the law. -/
theorem Node.FreedRoom.releaseFreed (h : n.FreedRoom) (taken : Bool) : (n.releaseFreed taken).FreedLaw := by
  have hroom := h.room
  cases hwork : n.log.hasWork with
  | true =>
    rw [Node.releaseFreed_working hwork]
    exact ⟨h.room, fun _ => hwork, h.cards⟩
  | false =>
    rw [Node.releaseFreed_idle hwork]
    cases taken with
    | true =>
      refine ⟨?_, nofun, Nat.min_le_left _ _⟩
      have := Nat.min_le_right n.cards.rowsWaiting (stagingCapacity - n.store.staging.length)
      simp only [Node.withStore_store, if_true]
      omega
    | false =>
      refine ⟨?_, nofun, h.cards⟩
      simp only [Node.withStore_store, Bool.false_eq_true, if_false]
      omega

/-- Giving out the entry of a program that has ended gives the law. -/
theorem Node.FreedRoom.giveFreed (h : n.FreedRoom) (taken : Bool) : (n.giveFreed taken).FreedLaw := by
  have hroom := h.room
  cases hwork : n.log.hasWork with
  | true =>
    rw [n.giveFreed_working hwork]
    cases taken with
    | true =>
      refine ⟨?_, fun _ => hwork, h.cards⟩
      simp only [Node.withStore_store, if_true]
      omega
    | false => exact ⟨h.room, fun _ => hwork, h.cards⟩
  | false => rw [n.giveFreed_idle hwork]; exact h.releaseFreed taken

end

/-! ### Rows of the log placed (R89, R92, R95) -/

/-- What placing rows of the log, each as the staging queue admits it, does to the store. -/
structure Store.LogPlaced (st st' : Store) : Prop where
  cells    : st'.cells = st.cells
  forCards : st'.forCards = st.forCards
  staging  : st.staging.length ≤ stagingCapacity → st'.staging.length ≤ stagingCapacity
  room     : st.staging.length + st.forLog + st.forCards ≤ stagingCapacity →
    st'.staging.length + st'.forLog + st'.forCards ≤ stagingCapacity

theorem Store.LogPlaced.refl (st : Store) : st.LogPlaced st := ⟨rfl, rfl, id, id⟩

theorem Store.LogPlaced.trans {a b c : Store} (h : a.LogPlaced b) (k : b.LogPlaced c) : a.LogPlaced c :=
  ⟨k.cells.trans h.cells, k.forCards.trans h.forCards, k.staging ∘ h.staging, k.room ∘ h.room⟩

section
variable {n m : Node} {st : Store}

theorem Store.LogPlaced.placeRow (k : st.LogPlaced n.store) (h : n.logAdmitted = true) {region : Region}
    (hlog : region.isLog = true) (row : Nat) (bytes : List Byte) : st.LogPlaced (n.placeRow region row bytes).store := by
  have hadmit := n.logAdmitted_iff.mp h
  refine k.trans ⟨rfl, ?_, ?_, ?_⟩ <;>
    simp only [Node.placeRow, Node.withStore_store, Store.place_forCards, Store.place_forLog, Store.place_staging, hlog,
      if_true, List.length_append, List.length_singleton]
  · omega
  · omega

theorem Store.LogPlaced.placeLifetime (k : st.LogPlaced n.store) (bytes : List Byte) :
    st.LogPlaced (n.placeLifetime bytes).store := by
  unfold Node.placeLifetime
  split
  next h => exact k.placeRow h rfl _ _
  · exact k

theorem Store.LogPlaced.placeAccounting (k : st.LogPlaced n.store) : st.LogPlaced n.placeAccounting.store := by
  unfold Node.placeAccounting
  split
  next h => exact Store.LogPlaced.placeLifetime (n := Node.withLog _ _) (k.placeRow h (region := .accounting) rfl _ _) _
  · exact k

theorem Store.LogPlaced.placeWaiting (k : st.LogPlaced n.store) : st.LogPlaced n.placeWaiting.store := by
  unfold Node.placeWaiting
  split
  · exact k
  · exact k.placeAccounting
  · exact k.placeLifetime _

theorem Store.LogPlaced.overflowItem (k : st.LogPlaced n.store) (e : LogEntry) : st.LogPlaced (n.overflowItem e).store := by
  unfold Node.overflowItem
  split
  · exact Store.LogPlaced.placeWaiting k
  · exact Store.LogPlaced.placeWaiting k
  · exact k

theorem Store.LogPlaced.appendRecord (k : st.LogPlaced n.store) (h : n.logAdmitted = true) (e : LogEntry) :
    st.LogPlaced (n.appendRecord e).store := by
  unfold Node.appendRecord
  exact Store.LogPlaced.placeWaiting (Store.LogPlaced.placeRow k h rfl _ _)

theorem Store.LogPlaced.itemTaken (k : st.LogPlaced n.store) (h : n.logAdmitted = true) (e : LogEntry)
    (rest : List LogEntry) : st.LogPlaced (n.itemTaken e rest).store := by
  unfold Node.itemTaken
  dsimp only
  split
  · exact Store.LogPlaced.overflowItem (by exact k) e
  · exact Store.LogPlaced.appendRecord (by exact k) (by exact h) e

theorem Node.FreedRoom.logPlaced (h : n.FreedRoom) (placed : n.store.LogPlaced m.store) (hcards : m.cards = n.cards) :
    m.FreedRoom :=
  ⟨placed.room h.room, by rw [placed.forCards, hcards]; exact h.cards⟩

theorem Node.logReady_iff (n : Node) : n.logReady = true ↔
    n.log.phase = .opened ∧ n.log.pair = .none ∧ n.log.working = none ∧ n.logAdmitted = true := by
  simp [Node.logReady, and_assoc]

end

/-! ### What every command keeps -/

/-- What O56 says of a step, the counters' bound read off the node before it. -/
structure Node.KeepsLaws (n m : Node) : Prop where
  lists   : n.ListsFit → m.ListsFit
  staging : n.store.staging.length ≤ stagingCapacity → m.store.staging.length ≤ stagingCapacity
  entries : n.tally.entries.length ≤ tallyCapacity → m.tally.entries.length ≤ tallyCapacity
  tally   : n.tally.touches + n.log.held.length < lastTouch → n.tally.Law → m.tally.Law
  form    : n.StoreForm → m.StoreForm
  freed   : n.FreedLaw → m.FreedLaw

namespace Node.KeepsLaws

variable {n m p : Node}

theorem of_store (h : n.KeepsStore m) (entries : n.tally.entries.length ≤ tallyCapacity → m.tally.entries.length ≤ tallyCapacity)
    (tally : n.tally.touches + n.log.held.length < lastTouch → n.tally.Law → m.tally.Law) : n.KeepsLaws m where
  lists := h.lists
  staging := by rw [h.store]; exact id
  entries := entries
  tally := tally
  form := by rw [Node.StoreForm, Node.StoreForm, h.store]; exact id
  freed := fun law => law.congr h.store h.cards h.work

theorem of_form (h : n.KeepsForm m) : n.KeepsLaws m :=
  .of_store h.toKeepsStore (by rw [h.tally]; exact id) (by rw [h.tally]; exact fun _ => id)

theorem of_totals (h : n.KeepsTotals m)
    (staging : n.store.staging.length ≤ stagingCapacity → m.store.staging.length ≤ stagingCapacity)
    (form : n.StoreForm → m.StoreForm) (freed : n.FreedLaw → m.FreedLaw) : n.KeepsLaws m where
  lists := h.lists
  staging := staging
  entries := by rw [h.tally]; exact id
  tally := by rw [h.tally]; exact fun _ => id
  form := form
  freed := freed

theorem refl (n : Node) : n.KeepsLaws n := of_form (.refl n)

/-- What is kept behind a change of the form of the tables is kept. -/
theorem form_after (h : n.KeepsLaws m) (k : m.KeepsForm p) : n.KeepsLaws p :=
  let after := of_form k
  ⟨after.lists ∘ h.lists, after.staging ∘ h.staging, after.entries ∘ h.entries,
    fun hlt law => by rw [k.tally]; exact h.tally hlt law, after.form ∘ h.form, after.freed ∘ h.freed⟩

/-- What is kept after a change that leaves the form of the tables and the records is kept. -/
theorem form_before (k : n.KeepsForm m) (held : m.log.held = n.log.held) (h : m.KeepsLaws p) : n.KeepsLaws p :=
  let before := of_form k
  ⟨h.lists ∘ before.lists, h.staging ∘ before.staging, h.entries ∘ before.entries,
    fun hlt law => h.tally (by rw [k.tally, held]; exact hlt) (k.tally ▸ law), h.form ∘ before.form, h.freed ∘ before.freed⟩

theorem ite {c : Prop} [Decidable c] (hm : n.KeepsLaws m) (hp : n.KeepsLaws p) : n.KeepsLaws (if c then m else p) := by
  split
  · exact hm
  · exact hp

end Node.KeepsLaws

end Sys2Proof.Machine
end

section
/-! The commands of the neighbour unit, the press unit and the status unit keep the form of the tables (R116, R152, R156). -/

open Sys2Proof Sys2Proof.Machine

namespace Sys2Proof.Machine

namespace Node.KeepsForm

section
variable {a n : Node}

/-! ### The neighbour unit's commands (08) -/

theorem noticeExpiry (h : a.KeepsForm n) : a.KeepsForm n.noticeExpiry := by
  unfold Node.noticeExpiry
  split
  · exact (h.reach _).offerNotice
  · exact h

theorem hearNotice (h : a.KeepsForm n) (r : Received) : a.KeepsForm (n.hearNotice r) := by
  unfold Node.hearNotice
  split
  · exact h
  · exact h.withNeighbour fun hfits => ⟨enterView_length_le hfits.1 _, hfits.2⟩

theorem viewExpiry (h : a.KeepsForm n) : a.KeepsForm n.viewExpiry := by
  unfold Node.viewExpiry
  split
  · exact h
  · exact (h.reach _).withNeighbour fun hfits => ⟨(withoutView_length_le _ _).trans hfits.1, hfits.2⟩

theorem hearRedirect (h : a.KeepsForm n) (r : Received) : a.KeepsForm (n.hearRedirect r) :=
  ite (h.withNeighbour fun hfits => ⟨hfits.1, enterExpected_length_le hfits.2 _ _⟩) h

theorem expectExpiry (h : a.KeepsForm n) : a.KeepsForm n.expectExpiry := by
  unfold Node.expectExpiry
  split
  · exact h
  next e rest hexpected =>
    refine (h.reach _).withNeighbour fun hfits => ⟨hfits.1, ?_⟩
    have := hfits.2
    rw [Node.reach_neighbour, hexpected] at this
    exact (Nat.le_succ _).trans this

/-! ### The press unit's commands (06) -/

theorem takingClaim (h : a.KeepsForm n) (kind : Kind) {f : Node → Received → Node}
    (hf : ∀ {m : Node} (r : Received), a.KeepsForm m → a.KeepsForm (f m r)) : a.KeepsForm (n.takingClaim kind f) :=
  h.taking kind fun r hm => ite (hf r hm) hm

theorem hearClaim (h : a.KeepsForm n) (r : Received) : a.KeepsForm (n.hearClaim r) :=
  h.withClaims fun hfits => enterClaim_length_le hfits _ _

theorem hearRelease (h : a.KeepsForm n) (r : Received) : a.KeepsForm (n.hearRelease r) :=
  h.withClaims (withoutClaim_length_le _ _).trans

theorem claimExpiry (h : a.KeepsForm n) : a.KeepsForm n.claimExpiry := by
  unfold Node.claimExpiry
  split
  · exact h
  · exact (h.reach _).withClaims (withoutClaim_length_le _ _).trans

theorem retryExpiry (h : a.KeepsForm n) : a.KeepsForm n.retryExpiry := by
  unfold Node.retryExpiry
  split
  · exact h
  · exact ((h.reach _).withPress).pressTrigger

theorem inhibitExpiry (h : a.KeepsForm n) : a.KeepsForm n.inhibitExpiry := by
  unfold Node.inhibitExpiry
  split
  · exact h
  · exact ((h.reach _).withPress).pressTrigger

theorem softStep (h : a.KeepsForm n) : a.KeepsForm n.softStep := by
  unfold Node.softStep
  split
  · exact ((h.reach _).withPress).abandonSounding
  · split
    · exact h
    · exact ite ((h.reach _).withPress) h

theorem endForward (h : a.KeepsForm n) : a.KeepsForm (n.withPress (n.press.endForward n.now)) :=
  h.withPress (n.press.endDrive_claims n.now)

theorem loadTrip (h : a.KeepsForm n) : a.KeepsForm n.loadTrip := by
  unfold Node.loadTrip
  split
  · exact ite h.endForward h
  · exact h

theorem endSwitch (h : a.KeepsForm n) (isActive : Bool) : a.KeepsForm (n.endSwitch isActive) := by
  unfold Node.endSwitch
  dsimp only
  have read := h.withPress (x := { n.press with endSwitch := if isActive then .active else .inactive })
  split
  · exact read.endForward
  · exact read

theorem forwardLimitReached (h : a.KeepsForm n) : a.KeepsForm n.forwardLimitReached := by
  unfold Node.forwardLimitReached
  split
  · exact (h.reach _).endForward
  · exact h

theorem dwellEnd (h : a.KeepsForm n) : a.KeepsForm n.dwellEnd := by
  unfold Node.dwellEnd
  split
  · exact (h.reach _).withPress
  · exact h

theorem reverseLimitReached (h : a.KeepsForm n) : a.KeepsForm n.reverseLimitReached := by
  unfold Node.reverseLimitReached
  split
  · exact (h.reach _).pressFault
  · exact h

theorem homeActive (h : a.KeepsForm n) (reading : Option Int) : a.KeepsForm (n.homeActive reading) :=
  let read := h.withPress (x := { n.press with homeSwitch := .active })
  ite (read.reachHome reading) read

theorem driveHoming (h : a.KeepsForm n) : a.KeepsForm n.driveHoming := h.withPress.abandonSounding

theorem homingStart (h : a.KeepsForm n) : a.KeepsForm n.homingStart := by
  unfold Node.homingStart
  split
  · exact h
  · exact ite (h.reach _).driveHoming h

theorem homeSettles (h : a.KeepsForm n) (isActive : Bool) (reading : Option Int) :
    a.KeepsForm (n.homeSettles isActive reading) :=
  let read := h.withPress (x := { n.press with homeSwitch := if isActive then .active else .inactive })
  ite (ite read (ite (read.reachHome reading) (ite read.driveHoming read))) h

theorem homeChanges (h : a.KeepsForm n) (isActive : Bool) : a.KeepsForm (n.homeChanges isActive) :=
  let read := h.withPress (x := { n.press with homeSwitch := if isActive then .active else .inactive })
  ite h (ite (read.withHatch _) read)

/-! ### Status and the configuration (11) -/

theorem hearStatusRequest (h : a.KeepsForm n) (r : Received) : a.KeepsForm (n.hearStatusRequest r) := by
  unfold Node.hearStatusRequest
  split
  · exact h.requestStatus _
  · exact h.answerRelayStatus _

end

end Node.KeepsForm

end Sys2Proof.Machine
end

section
/-! The commands that leave the tables, the store and the day's totals alone, and O27 for them. -/

open Sys2Proof Sys2Proof.Machine

namespace Sys2Proof.Machine

/-- The command neither completes a deposit, nor changes the day, the tally table, the card table or the store, nor starts the
node. -/
def quietCommand : Instr → Bool
  | .powerOn _ | .resetPin _ | .restart _ | .hatchClosed _ _ | .lift _ | .cardUpdate _ | .add _ | .remove _
  | .clear _ | .revokeAdd _ | .revokeRemove _ | .revokeClear _ | .clearRowWrite _ | .cardTableScanEnd _
  | .rowProgramEnd _ | .recordAppend _ | .accountingWrite _ | .confirmMarkWrite _ | .logScanEnd _ | .tallyNotice _
  | .clockSecond _ | .time _ | .resetPinHeld _ | .supplyFails _ => false
  | _ => true

/-- The answer leaves the tables' part of the node as it was. -/
def State.FormKeptBy (s : State) (o : Host.Outcome State Fault Refusal) : Prop :=
  ∀ s', o = .next s' → s.node.KeepsForm s'.node

/-! ### The nodes that act -/

section
variable {s : State} {dt : Nat} {f : Node → Node}

theorem keepsForm_perform (hf : ∀ {a n : Node}, a.KeepsForm n → a.KeepsForm (f n)) : s.FormKeptBy (s.perform dt f) := by
  intro s' h
  rw [State.perform_next.mp h]
  exact hf ((Node.KeepsForm.refl _).advance dt)

theorem keepsForm_live (hf : ∀ {a n : Node}, a.KeepsForm n → a.KeepsForm (f n)) :
    s.FormKeptBy (s.perform dt (fun n => n.whenLive f)) :=
  keepsForm_perform fun h => (hf h).ite h

theorem keepsForm_station (hf : ∀ {a n : Node}, a.KeepsForm n → a.KeepsForm (f n)) :
    s.FormKeptBy (s.perform dt (fun n => n.whenStation f)) :=
  keepsForm_perform fun h => (hf h).ite h

theorem keepsForm_relay (hf : ∀ {a n : Node}, a.KeepsForm n → a.KeepsForm (f n)) :
    s.FormKeptBy (s.perform dt (fun n => n.whenRelay f)) :=
  keepsForm_perform fun h => (hf h).ite h

theorem keepsForm_press (hf : ∀ {a n : Node}, a.KeepsForm n → a.KeepsForm (f n)) :
    s.FormKeptBy (s.perform dt (fun n => n.whenPress f)) :=
  keepsForm_station fun h => (hf h).ite h

end

/-! ### What the log takes, and the configuration -/

namespace Node.KeepsForm

variable {a n : Node}

theorem takingLog (h : a.KeepsForm n) {kind : Kind} {f : Node → Received → Node}
    (hf : ∀ {m : Node} (r : Received), a.KeepsForm m → a.KeepsForm (f m r)) : a.KeepsForm (n.takingLog kind f) :=
  (h.taking kind hf).ite h

theorem confirm (h : a.KeepsForm n) (u : Sequence) : a.KeepsForm (n.confirm u) := h.freeRecords _ _

theorem configured (h : a.KeepsForm n) (settings : Settings) (clamped : Bool) : a.KeepsForm (n.configured settings clamped) := by
  unfold Node.configured
  dsimp only
  have line := (h.withControl { n.control with phase := .running, settings := settings, clamped := clamped }).withLine
    (x := { n.line with random := BitVec.ofNat 16 (settings.address.getD 1), silence := some (n.now + silenceLength) })
  split
  · exact line.withPress.evaluateStart
  · exact line.withRelay

theorem enterSafe (h : a.KeepsForm n) (settings : Settings) : a.KeepsForm (n.enterSafe settings) :=
  ((((((h.withControl _).withLine.withSounding _).withHatch _).withPress).withNeighbour.withCall _).withRelay)

theorem configurationRead (h : a.KeepsForm n) (block : List Byte) : a.KeepsForm (n.configurationRead block) := by
  refine ite ?_ h
  split
  · exact h.configured _ _
  · exact h.enterSafe _

end Node.KeepsForm

/-! ### Every quiet command -/

/-- A quiet command leaves the tables' part of the node as it was. -/
theorem exec_keepsForm {i : Instr} (hq : quietCommand i = true) (s : State) : s.FormKeptBy (exec i s) := by
  cases i with
  | powerOn => cases hq
  | resetPin => cases hq
  | restart => cases hq
  | configurationRead _ block => exact keepsForm_perform (f := (Node.configurationRead · block)) (·.configurationRead block)
  | soundingDue _ reading => exact keepsForm_station fun h => h.soundingDue reading
  | pingSlotStart _ =>
    refine keepsForm_station fun h => ?_
    split
    · exact h
    · exact h.startSlot _
  | burstEnd _ => exact keepsForm_station fun h => h.atSlot h.burstEnd
  | blankingEnd _ => exact keepsForm_station fun h => h.atSlot h.blankingEnd
  | echoEdge _ => exact keepsForm_station fun h => h.atSlot h.echoEdge
  | pingWindowEnd _ => exact keepsForm_station fun h => h.atSlot h.windowEnd
  | soundingEnd _ => exact keepsForm_station (·.soundingEnd)
  | periodicTimerExpiry _ => exact keepsForm_station (·.periodicExpiry)
  | cardRead _ card => exact keepsForm_station fun h => h.cardRead card
  | readError _ => exact keepsForm_station fun h => h.ite (h.withHatch _)
  | windowExpiry _ => exact keepsForm_station (·.windowExpiry)
  | lockPullInEnd _ => exact keepsForm_station (·.pullInEnd)
  | deferredReleaseExpiry _ => exact keepsForm_station (·.deferredExpiry)
  | servicePeriodExpiry _ => exact keepsForm_station (·.serviceExpiry)
  | indicationExpiry _ => exact keepsForm_station (·.indicationExpiry)
  | buzzerToneEnd _ => exact keepsForm_station (·.toneEnd)
  | hatchSettled _ isOpen reading => exact keepsForm_station fun h => h.hatchSettles isOpen reading
  | hatchOpen _ => exact keepsForm_station (·.hatchOpens)
  | hatchClosed => cases hq
  | hatchStuck _ => exact keepsForm_station (·.hatchSticks)
  | liftSettled _ isLifted reading => exact keepsForm_station fun h => h.liftSettles isLifted reading
  | lift => cases hq
  | seat _ reading => exact keepsForm_station fun h => h.seats reading
  | cardUpdate => cases hq
  | add => cases hq
  | remove => cases hq
  | clear => cases hq
  | revokeAdd => cases hq
  | revokeRemove => cases hq
  | revokeClear => cases hq
  | clearRowWrite => cases hq
  | cardTableScanEnd => cases hq
  | rowProgramEnd => cases hq
  | recordAppend => cases hq
  | accountingWrite => cases hq
  | confirmMarkWrite => cases hq
  | logScanEnd => cases hq
  | harvestRequest _ => exact keepsForm_station fun h => h.takingLog fun _ hm => hm.fixHarvest _ _ _
  | harvestAnswer _ => exact keepsForm_station fun h => h.offerClass3 .harvest
  | harvestConfirm _ => exact keepsForm_station fun h => h.takingLog fun _ hm => hm.confirm _
  | tallyNotice => cases hq
  | clockSecond => cases hq
  | time => cases hq
  | pressClaim _ => exact keepsForm_station fun h => h.takingClaim _ fun r hm => hm.hearClaim r
  | pressRelease _ => exact keepsForm_station fun h => h.takingClaim _ fun r hm => hm.hearRelease r
  | claimEntryExpiry _ => exact keepsForm_press (·.claimExpiry)
  | retryTimerExpiry _ => exact keepsForm_press (·.retryExpiry)
  | inhibitTimerExpiry _ => exact keepsForm_press (·.inhibitExpiry)
  | softStartStep _ => exact keepsForm_press (·.softStep)
  | loadTrip _ => exact keepsForm_press (·.loadTrip)
  | endSwitchActive event => exact keepsForm_press fun h => h.endSwitch event.isActive
  | forwardTimeLimit _ => exact keepsForm_press (·.forwardLimitReached)
  | dwellEnd _ => exact keepsForm_press (·.dwellEnd)
  | homeSwitchActive _ reading => exact keepsForm_press fun h => h.homeActive reading
  | reverseTimeLimit _ => exact keepsForm_press (·.reverseLimitReached)
  | homingDriveStart _ => exact keepsForm_press (·.homingStart)
  | homeSwitchSettled _ isActive reading => exact keepsForm_press fun h => h.homeSettles isActive reading
  | lineIdle _ => exact keepsForm_live (·.lineIdle)
  | deferWaitEnd _ => exact keepsForm_live (·.deferEnd)
  | collision _ => exact keepsForm_live (·.collide)
  | transmissionSent _ supplyLow => exact keepsForm_live fun h => h.sent supplyLow
  | receptionEnd _ normal inverted => exact keepsForm_live fun h => h.receptionEnds normal inverted
  | silenceTimerExpiry _ => exact keepsForm_live (·.silenceExpiry)
  | correctionTimerExpiry _ => exact keepsForm_live (·.correctionExpiry)
  | noticeTimerExpiry _ => exact keepsForm_station (·.noticeExpiry)
  | fillNotice _ => exact keepsForm_station fun h => h.taking _ fun r hm => hm.hearNotice r
  | viewEntryExpiry _ => exact keepsForm_station (·.viewExpiry)
  | redirectNotice _ => exact keepsForm_station fun h => h.taking _ fun r hm => hm.hearRedirect r
  | expectEntryExpiry _ => exact keepsForm_station (·.expectExpiry)
  | resendTimerExpiry _ => exact keepsForm_station (·.resendExpiry)
  | lapseRestExpiry _ => exact keepsForm_station (·.lapseExpiry)
  | holdOffExpiry _ => exact keepsForm_station (·.holdOffExpiry)
  | callAnswer _ => exact keepsForm_station fun h => h.taking _ fun _ hm => hm.hearAnswer _
  | call _ => exact keepsForm_station fun h => h.taking _ fun r hm => hm.hearCall r
  | callJoin _ => exact keepsForm_station fun h => h.taking _ fun r hm => hm.hearJoin r
  | depotFrame _ chars => exact keepsForm_relay fun h => h.depotChars chars
  | depotFrameTimeout _ => exact keepsForm_relay (·.frameTimeout)
  | depotToLineOffer _ => exact keepsForm_relay (·.offerFromDepot)
  | depotFrameSend _ cts => exact keepsForm_relay fun h => h.beginFrame cts
  | depotFrameEnd _ => exact keepsForm_relay (·.endFrame)
  | answerTimerExpiry _ => exact keepsForm_relay (·.answerExpiry)
  | relayClockSecond _ => exact keepsForm_relay fun h => h.withRelay
  | originationTimerExpiry _ => exact keepsForm_relay (·.originate)
  | statusRequest _ => exact keepsForm_live fun h => h.taking _ fun r hm => hm.hearStatusRequest r
  | statusAnswer _ => exact keepsForm_station fun h => h.offerClass3 .status
  | resetPinHeld => cases hq
  | supplyFails => cases hq
  | receptionBegins _ => exact keepsForm_live (·.receptionBegins)
  | homeSwitchChange _ isActive => exact keepsForm_press fun h => h.homeChanges isActive

end Sys2Proof.Machine
end

section
/-! O27: the day's totals under the commands that complete nothing, roll nothing over and start nothing. -/

open Sys2Proof Sys2Proof.Machine

namespace Sys2Proof.Machine

/-- The answer leaves the day total and the day deposit count as they were. -/
def State.TotalsKeptBy (s : State) (o : Host.Outcome State Fault Refusal) : Prop :=
  ∀ s', o = .next s' → s'.node.log.accounting.total = s.node.log.accounting.total ∧
    s'.node.log.accounting.count = s.node.log.accounting.count

theorem State.FormKeptBy.totals {s : State} {o : Host.Outcome State Fault Refusal} (h : s.FormKeptBy o) : s.TotalsKeptBy o :=
  fun s' hs' => ⟨(h s' hs').total, (h s' hs').count⟩

section
variable {s : State} {dt : Nat} {f : Node → Node}

theorem totals_perform (hf : ∀ n : Node, (f n).log.accounting.total = n.log.accounting.total ∧
    (f n).log.accounting.count = n.log.accounting.count) : s.TotalsKeptBy (s.perform dt (fun n => n.whenStation f)) := by
  intro s' h
  rw [State.perform_next.mp h]
  simp only [Node.whenStation]
  split
  · exact hf _
  · exact ⟨rfl, rfl⟩

theorem totals_station (hf : ∀ n : Node, n.KeepsTotals (f n)) : s.TotalsKeptBy (s.perform dt (fun n => n.whenStation f)) :=
  totals_perform fun n => ⟨(hf n).total, (hf n).count⟩

end

/-- An append leaves the day's totals as they were. -/
theorem Node.appendOldest_totals (n : Node) : n.appendOldest.log.accounting.total = n.log.accounting.total ∧
    n.appendOldest.log.accounting.count = n.log.accounting.count := by
  rcases n.appendOldest_cases with e | ⟨item, rest, -, -, e⟩ <;> rw [e]
  · exact ⟨rfl, rfl⟩
  · have taken := (Node.KeepsTotals.refl n).itemTaken item rest
    have released (m : Node) := (Node.KeepsTotals.refl m).releaseFreed n.entriesTaken
    split
    · exact ⟨(released _).total.trans taken.total, (released _).count.trans taken.count⟩
    · exact ⟨(released _).total.trans taken.total, (released _).count.trans taken.count⟩

/-- A heard notice leaves the day's totals as they were. -/
theorem Node.hearTally_log (n : Node) (r : Received) : (n.hearTally r).log = n.log := by
  unfold Node.hearTally
  split
  · split <;> rfl
  · rfl

/-- A TALLY NOTICE taken leaves the deposit log as it was. -/
theorem Node.takingTally_log (n : Node) :
    (if n.tally.rebuilt then n.taking .tallyNotice Node.hearTally else n).log = n.log := by
  split
  · rcases n.taking_cases .tallyNotice Node.hearTally with e | ⟨r, -, -, e⟩ <;> rw [e]
    exact Node.hearTally_log _ r
  · rfl

end Sys2Proof.Machine

/-- Settles O27: a command that completes nothing, rolls nothing over and starts nothing either leaves the log's totals alone
or is one of the store's, the card table's or the log's own. -/
theorem dayTotalsChangeOnlyByCompletionOrRollover : Obligations.DayTotalsChangeOnlyByCompletionOrRollover := by
  intro c s n hexec hclosed hlift hclock htime hscan hpower hpin hheld hfails hrestart
  have kept : s.TotalsKeptBy (exec c s) := by
    cases c with
    | hatchClosed dt reading => exact absurd rfl (hclosed dt reading)
    | lift dt => exact absurd rfl (hlift dt)
    | clockSecond dt => exact absurd rfl (hclock dt)
    | time dt => exact absurd rfl (htime dt)
    | logScanEnd dt => exact absurd rfl (hscan dt)
    | powerOn dt => exact absurd rfl (hpower dt)
    | resetPin dt => exact absurd rfl (hpin dt)
    | resetPinHeld dt => exact absurd rfl (hheld dt)
    | supplyFails dt => exact absurd rfl (hfails dt)
    | restart dt => exact absurd rfl (hrestart dt)
    | cardUpdate dt => exact totals_station fun n => (Node.KeepsTotals.refl n).takeUpdate
    | add dt => exact totals_station fun n => (Node.KeepsTotals.refl n).workOp Node.workAdd_works
    | remove dt => exact totals_station fun n => (Node.KeepsTotals.refl n).workOp Node.workRemove_works
    | revokeAdd dt => exact totals_station fun n => (Node.KeepsTotals.refl n).workOp Node.workRevokeAdd_works
    | revokeRemove dt => exact totals_station fun n => (Node.KeepsTotals.refl n).workOp Node.workRevokeRemove_works
    | clear dt => exact totals_station fun n => (Node.KeepsTotals.refl n).workClear _ _
    | revokeClear dt => exact totals_station fun n => (Node.KeepsTotals.refl n).workClear _ _
    | clearRowWrite dt => exact totals_station fun n => (Node.KeepsTotals.refl n).clearRow
    | cardTableScanEnd dt => exact totals_station fun n => (Node.KeepsTotals.refl n).cardScanEnd
    | rowProgramEnd dt => exact totals_station fun n => (Node.KeepsTotals.refl n).programEnds
    | recordAppend dt => exact totals_perform Node.appendOldest_totals
    | accountingWrite dt => exact totals_station fun n => (Node.KeepsTotals.refl n).writeAccounting
    | confirmMarkWrite dt => exact totals_station fun n => (Node.KeepsTotals.refl n).writeMark
    | tallyNotice dt => exact totals_perform fun n => by rw [Node.takingTally_log]; exact ⟨rfl, rfl⟩
    | _ => exact (exec_keepsForm rfl s).totals
  exact kept _ hexec
end

section
/-! O56, the commands of the store, the card table, the log, the clock, the tally unit and the hatch, and the starts. -/

open Sys2Proof Sys2Proof.Machine

namespace Sys2Proof.Machine

theorem Node.KeepsStore.form {a n m : Node} (h : a.KeepsStore n) (k : n.KeepsForm m) : a.KeepsStore m :=
  h.trans k.toKeepsStore

/-! ### Deposits (R63) -/

section
variable {n : Node}

/-- A completion leaves the store and the card table, and gives the log an item. -/
theorem Node.KeepsStore.completeDeposit {a : Acceptance} (ha : n.hatch.acceptance = some a) :
    n.KeepsStore n.completeDeposit := by
  rw [Node.completeDeposit_eq ha]
  have told : n.KeepsStore (n.depositTold a) := ((Node.KeepsStore.refl n).withTally _).form ((Node.KeepsForm.refl _).offerOnly _ _)
  have entered : n.KeepsStore (n.depositEntered a) := by
    rw [Node.depositEntered, Node.enterCharged_eq]
    refine (told.form ((Node.KeepsForm.refl _).dropExpected a.card)).withLog ?_
    exact Log.hasWork_mono rfl rfl rfl (fun _ => by simp) id id
  exact entered.form ((Node.KeepsForm.refl _).depositEstimate.countPressDeposit.withHatch _)

theorem Node.KeepsLaws.completeDeposit (n : Node) : n.KeepsLaws n.completeDeposit := by
  cases ha : n.hatch.acceptance with
  | none =>
    have hid : n.completeDeposit = n := by simp [Node.completeDeposit, ha]
    exact hid.symm ▸ .refl n
  | some a =>
    have completed := Node.completeDeposit_completed ha
    refine .of_store (.completeDeposit ha) ?_ ?_ <;> rw [completed.tally]
    · exact fun h => Node.tallyCounted_length_le h a
    · exact fun hlt law => Node.tallyCounted_law law hlt a

theorem Node.KeepsLaws.closeByPhase (n : Node) : n.KeepsLaws n.closeByPhase := by
  have withHatch (m : Node) (x : Hatch) := (Node.KeepsForm.refl m).withHatch x
  unfold Node.closeByPhase
  split
  · exact (Node.KeepsLaws.completeDeposit n).form_after (withHatch _ _)
  · exact .of_form (withHatch _ _)
  · exact .of_form (withHatch _ _)
  · exact .refl n
  · exact .refl n
  · exact .refl n

theorem Node.KeepsLaws.liftByPhase (n : Node) : n.KeepsLaws n.liftByPhase := by
  have withHatch (m : Node) (x : Hatch) := (Node.KeepsForm.refl m).withHatch x
  unfold Node.liftByPhase
  split
  · exact .of_form (withHatch _ _)
  · exact .of_form (withHatch _ _)
  · exact (Node.KeepsLaws.completeDeposit n).form_after (withHatch _ _)
  · exact .of_form (withHatch _ _)
  · exact .refl n
  · exact .refl n

/-- A closing, and what follows it. -/
theorem Node.KeepsLaws.closed {m : Node} (k : n.KeepsForm m) (held : m.log.held = n.log.held) (reading : Option Int) :
    n.KeepsLaws ((m.closeByPhase.resumePress.trySounding reading).pressTrigger) :=
  form_before k held ((Node.KeepsLaws.closeByPhase m).form_after
    ((Node.KeepsForm.refl _).resumePress.trySounding reading).pressTrigger)

theorem Node.KeepsLaws.hatchCloses (n : Node) (reading : Option Int) : n.KeepsLaws (n.hatchCloses reading) :=
  ite (Node.KeepsLaws.closed ((Node.KeepsForm.refl n).withHatch _).noticeCheck (by exact (Node.noticeCheck_talk _).held) reading)
    (.refl n)

/-- A lift, and what follows it. -/
theorem Node.KeepsLaws.lifted {m : Node} (k : n.KeepsForm m) (held : m.log.held = n.log.held) :
    n.KeepsLaws m.liftByPhase.liftFill.liftCall.interruptPress.pressTrigger :=
  form_before k held ((Node.KeepsLaws.liftByPhase m).form_after
    (Node.KeepsForm.refl _).liftFill.liftCall.interruptPress.pressTrigger)

theorem Node.KeepsLaws.lifts (n : Node) : n.KeepsLaws n.lifts :=
  ite (Node.KeepsLaws.lifted ((Node.KeepsForm.refl n).withHatch _) rfl) (.refl n)

/-! ### The clock and the tally unit (R74, R78 to R80) -/

/-- The items at a rollover are as many as before (R81). -/
theorem closeItems_length (room : Nat) (a : Accounting) (items : List LogEntry) :
    (closeItems room a items).2.length = items.length := by
  induction items generalizing room a with
  | nil => rfl
  | cons e rest ih =>
    unfold closeItems
    split <;> simp [ih]

theorem Log.closeOverflow_hasWork {l : Log} (h : l.hasWork = true) : l.closeOverflow.hasWork = true := by
  refine Log.hasWork_mono (l := l) rfl rfl rfl (fun hne => ?_) id id h
  have hlength := closeItems_length (logCapacity - l.held.length) l.accounting l.appendList
  exact List.ne_nil_of_length_pos (hlength ▸ List.length_pos_of_ne_nil hne)

/-- The node with the closing day's totals given to the log, after the deposits that will overflow (R80, R81). -/
def Node.dayClosed (n : Node) : Node :=
  (n.withLog n.log.closeOverflow).requestRecord (.dayClose n.log.closeOverflow.accounting.total
    n.log.closeOverflow.accounting.count n.log.closeOverflow.accounting.overflowCount) n.sounding.fill

/-- The node on the new day, before the missed-round test (R80). -/
def Node.dayEntered (n : Node) (day : Nat) : Node :=
  ((n.dayClosed.withClock { n.dayClosed.clock with day := day, enteredAt := some n.dayClosed.now }).withTally
    n.dayClosed.tally.emptied).withLog { n.dayClosed.log with accounting := n.dayClosed.log.accounting.newDay day }

theorem Node.rollover_eq (n : Node) (day : Nat) : n.rollover day = (n.dayEntered day).missedRound := rfl

/-- A rollover leaves the store and the card table, and the log as much to write. -/
theorem Node.KeepsStore.rollover (n : Node) (day : Nat) : n.KeepsStore (n.rollover day) := by
  have closed : n.KeepsStore n.dayClosed :=
    ((Node.KeepsStore.refl n).withLog Log.closeOverflow_hasWork).form ((Node.KeepsForm.refl _).requestRecord _ _)
  have entered : n.KeepsStore (n.dayEntered day) :=
    ((closed.form ((Node.KeepsForm.refl _).withClock _)).withTally _).withLog id
  exact entered.form (Node.KeepsForm.refl _).missedRound

/-- A rollover empties the tally table (R80). -/
theorem Node.rollover_tally (n : Node) (day : Nat) : (n.rollover day).tally = n.tally.emptied := by
  have closed : n.dayClosed.tally = n.tally := ((Node.KeepsForm.refl (n.withLog _)).requestRecord _ _).tally
  rw [n.rollover_eq, (Node.KeepsForm.refl (n.dayEntered day)).missedRound.tally, ← closed]
  rfl

theorem Node.KeepsLaws.rollover (n : Node) (day : Nat) : n.KeepsLaws (n.rollover day) := by
  refine .of_store (.rollover n day) ?_ ?_ <;> rw [n.rollover_tally]
  · exact fun _ => Nat.zero_le _
  · exact fun _ _ => Tally.law_of_empty rfl (Nat.zero_le _)

theorem Node.KeepsLaws.clockSecond (n : Node) : n.KeepsLaws n.clockSecond := by
  unfold Node.clockSecond
  split
  · exact .refl n
  · dsimp only
    have rolled {c : Prop} [Decidable c] (day : Nat) := ite (c := c) (Node.KeepsLaws.rollover n day) (.refl n)
    exact ite (form_after (rolled _) ((Node.KeepsForm.refl _).withClock _).pressTrigger)
      (form_after (rolled _) ((Node.KeepsForm.refl _).withClock _))

theorem Node.KeepsLaws.takeTime (n : Node) (day seconds : Nat) : n.KeepsLaws (n.takeTime day seconds) := by
  refine ite (.refl n) (ite ?_ (ite (.refl n) ?_))
  · exact (Node.KeepsLaws.rollover n day).form_after ((Node.KeepsForm.refl _).withClock _).pressTrigger
  · exact .of_form ((Node.KeepsForm.refl n).withClock _).pressTrigger

theorem Node.KeepsLaws.hearTime (n : Node) (r : Received) : n.KeepsLaws (n.hearTime r) := by
  unfold Node.hearTime
  split
  · exact .takeTime n _ _
  · exact .refl n

theorem Node.KeepsLaws.hearTally (n : Node) (r : Received) : n.KeepsLaws (n.hearTally r) := by
  rw [Node.hearTally_eq]
  split
  · cases hcount : n.tally.countHeard (BitVec.ofNat 32 (field r.telegram.payload 0 4)) with
    | none => exact .of_store ((Node.KeepsStore.refl n).withTally _) id fun _ law => law.congr rfl rfl
    | some t =>
      refine .of_store ((Node.KeepsStore.refl n).withTally _) (fun h => Tally.touch_length_le h hcount) fun hlt law => ?_
      exact law.touch (Nat.lt_of_le_of_lt (Nat.le_add_right _ _) hlt) (counting_heard _) hcount
  · exact .refl n

/-- A telegram taken leaves the receive buffer, and then its unit acts. -/
theorem Node.KeepsLaws.taking (n : Node) (kind : Kind) {f : Node → Received → Node}
    (hf : ∀ (m : Node) (r : Received), m.KeepsLaws (f m r)) : n.KeepsLaws (n.taking kind f) := by
  rcases n.taking_cases kind f with e | ⟨r, -, -, e⟩ <;> rw [e]
  · exact .refl n
  · exact form_before ((Node.KeepsForm.refl n).taken _) rfl (hf _ r)

end

end Sys2Proof.Machine
end

section
/-! O56, the end of the log's scan, the starts and the commands that place or program rows. -/

open Sys2Proof Sys2Proof.Machine

namespace Sys2Proof.Machine

variable {n m : Node}

/-! ### The end of the log's scan (R105 to R108) -/

/-- A log being scanned has nothing to write that could be lost. -/
theorem Node.KeepsStore.withLog_of_scanning (ha : n.log.phase = .scanning) (h : n.KeepsStore m) (x : Log) :
    n.KeepsStore (m.withLog x) :=
  ⟨h.lists, h.store, h.cards, fun hw => by simp [Log.hasWork_of_scanning ha] at hw⟩

theorem Node.KeepsStore.restartRecord (ha : n.log.phase = .scanning) (h : n.KeepsStore m) : n.KeepsStore m.restartRecord := by
  unfold Node.restartRecord
  dsimp only
  split
  · exact h.withLog_of_scanning ha _
  · exact h.withLog_of_scanning ha _

theorem Node.KeepsStore.takeEarly (ha : n.log.phase = .scanning) (h : n.KeepsStore m) : n.KeepsStore m.takeEarly := by
  unfold Node.takeEarly
  have emptied := h.withLog_of_scanning ha { m.log with early := [] }
  generalize m.withLog { m.log with early := [] } = k at emptied
  induction m.log.early generalizing k with
  | nil => exact emptied
  | cons q rest ih => exact ih _ (emptied.withLog_of_scanning ha _)

theorem Node.KeepsStore.scanned (ha : n.log.phase = .scanning) :
    n.KeepsStore ((n.takeScan n.store.scanLog).restartRecord).takeEarly := by
  have found : n.KeepsStore (n.takeScan n.store.scanLog) :=
    (((Node.KeepsStore.refl n).withLog_of_scanning ha _).form ((Node.KeepsForm.refl _).withClock _)).form
      ((Node.KeepsForm.refl _).withCall _)
  exact (found.restartRecord ha).takeEarly ha

/-- What the end of the scan takes leaves the tally table as it was. -/
theorem Node.takeEarly_tally (n : Node) : n.takeEarly.tally = n.tally := by
  unfold Node.takeEarly
  have emptied : (n.withLog { n.log with early := [] }).tally = n.tally := rfl
  generalize n.withLog { n.log with early := [] } = k at emptied
  induction n.log.early generalizing k with
  | nil => exact emptied
  | cons q rest ih => exact ih _ emptied

theorem Node.restartRecord_tally (n : Node) : n.restartRecord.tally = n.tally := by
  unfold Node.restartRecord
  dsimp only
  split <;> rfl

theorem Node.KeepsLaws.logScanEnd (n : Node) : n.KeepsLaws n.logScanEnd := by
  unfold Node.logScanEnd
  split
  next hscan =>
    have htally : (((n.takeScan n.store.scanLog).restartRecord).takeEarly).tally = n.tally := by
      rw [Node.takeEarly_tally, Node.restartRecord_tally]
      rfl
    refine form_after (of_store (.scanned hscan) ?_ ?_) (Node.KeepsForm.refl _).evaluateStart.pressTrigger
    · rw [htally]; exact id
    · rw [htally]; exact fun _ => id
  · exact .refl n

/-! ### The starts (R88, R186, R188) -/

/-- A start empties the staging queue, and keeps no entry of it for a unit. -/
theorem Store.cutOff_freed (st : Store) : st.cutOff.forLog = 0 ∧ st.cutOff.forCards = 0 := by
  unfold Store.cutOff
  split <;> exact ⟨rfl, rfl⟩

theorem Node.KeepsLaws.startUnits (n : Node) (cause : Cause) : n.KeepsLaws (n.startUnits cause) := by
  obtain ⟨hlog, hcards⟩ := n.store.cutOff_freed
  have hstaging : (n.startUnits cause).store.staging.length = 0 := congrArg List.length n.store.cutOff_staging
  refine ⟨fun _ => ?_, fun _ => ?_, fun _ => Nat.zero_le _, fun _ _ => Tally.law_of_empty rfl (Nat.zero_le _), fun h => ?_,
    fun _ => ⟨?_, fun h => ?_, ?_⟩⟩
  · exact ⟨⟨Nat.zero_le _, Nat.zero_le _⟩, Nat.zero_le _, ⟨Nat.zero_le _, Nat.zero_le _⟩, Nat.zero_le _, Nat.zero_le _,
      Nat.zero_le _⟩
  · exact hstaging ▸ Nat.zero_le _
  · exact (congrArg (Memory.wf · = true) n.store.cutOff_cells).mpr h
  · have hsum : (n.startUnits cause).store.forLog = 0 ∧ (n.startUnits cause).store.forCards = 0 := ⟨hlog, hcards⟩
    rw [hstaging, hsum.1, hsum.2]
    exact Nat.zero_le _
  · exact absurd (hlog ▸ h : 0 < 0) (Nat.lt_irrefl 0)
  · exact hcards.le.trans (Nat.zero_le _)

/-- A start behind a change of the supply or the RESET pin. -/
theorem Node.KeepsLaws.startUnits_withPower (n : Node) (x : Power) (cause : Cause) :
    n.KeepsLaws ((n.withPower x).startUnits cause) :=
  form_before ((Node.KeepsForm.refl n).withPower x) rfl (.startUnits _ cause)

theorem Node.KeepsLaws.withPower (n : Node) (x : Power) : n.KeepsLaws (n.withPower x) :=
  of_form ((Node.KeepsForm.refl n).withPower x)

theorem Node.KeepsLaws.holdReset (n : Node) : n.KeepsLaws n.holdReset :=
  ite (.startUnits_withPower n _ _) (.withPower n _)

theorem Node.KeepsLaws.releaseReset (n : Node) : n.KeepsLaws n.releaseReset :=
  ite (.startUnits_withPower n _ _) (.withPower n _)

/-! ### The rows of the log (R89, R92, R93, R95, R103) -/

/-- The log places rows and releases what was kept for it. -/
theorem Node.KeepsLaws.logPlaced (totals : n.KeepsTotals m) (placed : n.store.LogPlaced m.store) (hcards : m.cards = n.cards)
    (taken : Bool) : n.KeepsLaws (m.releaseFreed taken) := by
  have hstore : (m.releaseFreed taken).store.staging = m.store.staging ∧ (m.releaseFreed taken).store.cells = m.store.cells := by
    unfold Node.releaseFreed
    split <;> exact ⟨rfl, rfl⟩
  refine .of_totals (totals.releaseFreed taken) ?_ ?_ fun law => (law.freedRoom.logPlaced placed hcards).releaseFreed taken
  · rw [hstore.1]; exact placed.staging
  · rw [Node.StoreForm, Node.StoreForm, hstore.2, placed.cells]; exact id

theorem Node.KeepsLaws.writeAccounting (n : Node) : n.KeepsLaws n.writeAccounting :=
  ite (.logPlaced (Node.KeepsTotals.refl n).placeAccounting (Store.LogPlaced.refl _).placeAccounting
    (Node.cards_of_tablePart n.placeAccounting_tablePart) _) (.refl n)

theorem Node.KeepsLaws.writeMark (n : Node) : n.KeepsLaws n.writeMark := by
  unfold Node.writeMark
  split
  · exact .refl n
  next r _ =>
    split
    next h =>
      obtain ⟨-, -, -, hadmit⟩ := n.logReady_iff.mp h.1
      have placed := (Store.LogPlaced.refl n.store).placeRow hadmit (region := .log) rfl (logRowOf r.seq)
        (logRow { r with confirmed := true })
      exact .logPlaced ((Node.KeepsTotals.refl n).placeRow _ _ _).withLog (by exact placed) rfl _
    · exact .refl n

/-- Ending the rebuild keeps the laws that a change of the node but for the tally table keeps. -/
theorem Node.KeepsLaws.endRebuild (h : n.KeepsLaws m) (tally : m.tally = n.tally)
    (held : m.log.held.length ≤ n.log.held.length + 1) : n.KeepsLaws m.endRebuild := by
  refine ⟨h.lists, h.staging, fun hle => ?_, fun hlt law => ?_, h.form, fun law => ?_⟩
  · exact Node.tallyInUse_length_le (tally ▸ hle)
  · exact (Node.tallyInUse_law (tally ▸ law) (by rw [tally]; omega)).1
  · exact (h.freed law).congr rfl rfl id

theorem Node.itemTaken_cards (n : Node) (e : LogEntry) (rest : List LogEntry) : (n.itemTaken e rest).cards = n.cards := by
  refine Node.cards_of_tablePart ?_
  unfold Node.itemTaken
  dsimp only
  split <;> simp

/-- The log but for what its placing of rows changes: the rows still to be placed, the item being worked, and accounting due. -/
def Log.SameButRows (l k : Log) : Prop := { k with pair := l.pair, working := l.working, due := l.due } = l

theorem Log.SameButRows.refl (l : Log) : l.SameButRows l := rfl

theorem Node.placeLifetime_sameButRows (n : Node) (bytes : List Byte) : n.log.SameButRows (n.placeLifetime bytes).log := by
  unfold Node.placeLifetime
  split <;> rfl

theorem Node.placeAccounting_sameButRows (n : Node) : n.log.SameButRows n.placeAccounting.log := by
  unfold Node.placeAccounting Node.placeLifetime
  split
  · split <;> rfl
  · rfl

theorem Node.placeWaiting_sameButRows (n : Node) : n.log.SameButRows n.placeWaiting.log := by
  unfold Node.placeWaiting
  split
  · rfl
  · exact n.placeAccounting_sameButRows
  · exact n.placeLifetime_sameButRows _

theorem Log.SameButRows.held {l k : Log} (h : l.SameButRows k) : k.held = l.held := (congrArg Log.held h :)

/-- Taking an item holds at most one record more. -/
theorem Node.itemTaken_held_length (n : Node) (e : LogEntry) (rest : List LogEntry) :
    (n.itemTaken e rest).log.held.length ≤ n.log.held.length + 1 := by
  unfold Node.itemTaken
  dsimp only
  split
  · unfold Node.overflowItem
    split
    · rw [(Node.placeWaiting_sameButRows _).held]; exact Nat.le_succ _
    · rw [(Node.placeWaiting_sameButRows _).held]; exact Nat.le_succ _
    · exact Nat.le_succ _
  · unfold Node.appendRecord
    rw [(Node.placeWaiting_sameButRows _).held]
    simp [Node.placeRow]

theorem Node.endRebuild_releaseFreed (n : Node) (taken : Bool) :
    n.endRebuild.releaseFreed taken = (n.releaseFreed taken).endRebuild := by
  unfold Node.releaseFreed
  change (if n.log.hasWork = true then n.endRebuild else _) = _
  split <;> rfl

theorem Node.KeepsLaws.appendOldest (n : Node) : n.KeepsLaws n.appendOldest := by
  rcases n.appendOldest_cases with e | ⟨item, rest, -, hready, e⟩ <;> rw [e]
  · exact .refl n
  · obtain ⟨-, -, -, hadmit⟩ := n.logReady_iff.mp hready
    have totals := (Node.KeepsTotals.refl n).itemTaken item rest
    have kept := Node.KeepsLaws.logPlaced totals (.itemTaken (.refl _) hadmit item rest) (n.itemTaken_cards item rest)
      n.entriesTaken
    split
    · exact kept
    · rw [Node.endRebuild_releaseFreed]
      refine kept.endRebuild (totals.releaseFreed _).tally ?_
      have hlog : ((n.itemTaken item rest).releaseFreed n.entriesTaken).log = (n.itemTaken item rest).log := by
        unfold Node.releaseFreed
        split <;> rfl
      rw [hlog]
      exact n.itemTaken_held_length item rest

/-! ### The rows that the card table has to place (R29, R33, R36) -/

/-- In OPEN with nothing being worked the card table has no row to place. -/
theorem Cards.rowsWaiting_of_idle {c : Cards} (hp : c.phase = .opened) (hu : c.update = none) : c.rowsWaiting = 0 := by
  simp [Cards.rowsWaiting, hp, hu]

/-- In OPEN the card table has at most the row of the operation at the front to place. -/
theorem Cards.rowsWaiting_of_front {c : Cards} {index : Nat} {op : CardOp} {rest : List (Nat × CardOp)} {buffered : Bool}
    (hp : c.phase = .opened) (hu : c.update = some ⟨(index, op) :: rest, buffered⟩) :
    c.rowsWaiting = if c.changesRow op then 1 else 0 := by
  simp [Cards.rowsWaiting, hp, hu]

/-- In a clear each row still to come is to place. -/
theorem Cards.rowsWaiting_of_clearing {c : Cards} {region : Region} {rows row : Nat} (hc : c.clearing = some (region, rows))
    (hp : c.progress = some row) : c.rowsWaiting = rows - row := by
  have hphase : c.phase ≠ .opened := fun hopen => by simp [Cards.clearing, hopen] at hc
  unfold Cards.rowsWaiting
  split
  · contradiction
  · simp [hc, hp]

/-! ### The end of a program (R88) -/

/-- The end of a program completes a clear only when it has no row to place any more (R34, R36). -/
theorem Node.clearProgrammed_rows (n : Node) (w : RowWrite) : n.clearProgrammed w = n ∨ n.cards.rowsWaiting = 0 := by
  unfold Node.clearProgrammed
  split
  next region rows row hclearing hprogress =>
    split
    next hlast =>
      right
      rw [Cards.rowsWaiting_of_clearing hclearing hprogress, hlast.1, Nat.sub_self]
    · exact .inl rfl
  · exact .inl rfl

/-- What the card table does at the end of a program leaves the store. -/
theorem Node.clearProgrammed_store (n : Node) (w : RowWrite) : (n.clearProgrammed w).store = n.store := by
  have resumed (x : Cards) : ((n.withCards x).resumeHeld).store = n.store := by
    obtain ⟨update, same⟩ := (n.withCards x).resumeHeld_same
    exact same.store
  rcases n.clearProgrammed_cases w with e | ⟨-, e⟩ | ⟨-, e⟩ <;> rw [e]
  · exact resumed _
  · exact resumed _

theorem Node.FreedRoom.clearProgrammed (h : n.FreedRoom) (w : RowWrite) : (n.clearProgrammed w).FreedRoom := by
  refine ⟨?_, ?_⟩
  · rw [n.clearProgrammed_store]; exact h.room
  · rcases n.clearProgrammed_rows w with e | hnone
    · rw [e]; exact h.cards
    · have hcards := h.cards
      rw [n.clearProgrammed_store]
      omega

theorem Node.programmedAt_store (n : Node) (t : Moment) (w : RowWrite) :
    (n.programmedAt t w).store = n.store.programmed (n.reach t).now := by
  unfold Node.programmedAt Node.commitRow
  dsimp only
  split <;> rfl

/-- Without a program under way nothing ends; else the row is programmed, and the units hear of it. -/
theorem Node.programEnds_cases (n : Node) : n.programEnds = n ∨ ∃ t w, n.programEnds =
    (((n.programmedAt t w).clearProgrammed w).placeWaiting).giveFreed (n.reach t).entriesTaken := by
  unfold Node.programEnds
  split
  next t w _ _ _ => exact .inr ⟨t, w, rfl⟩
  · exact .inl rfl

theorem Node.FreedRoom.programmedAt (h : n.FreedRoom) (t : Moment) (w : RowWrite) : (n.programmedAt t w).FreedRoom := by
  have hroom := h.room
  refine ⟨?_, ?_⟩
  · rw [n.programmedAt_store, Store.programmed_staging, Store.programmed_forLog, Store.programmed_forCards, List.length_tail]
    omega
  · rw [n.programmedAt_store, Store.programmed_forCards, Node.cards_of_tablePart (n.programmedAt_tablePart t w)]
    exact h.cards

theorem Node.KeepsLaws.programEnds (n : Node) : n.KeepsLaws n.programEnds := by
  have totals := (Node.KeepsTotals.refl n).programEnds
  rcases n.programEnds_cases with e | ⟨t, w, e⟩
  · exact e.symm ▸ .refl n
  · have cleared : ((n.programmedAt t w).clearProgrammed w).store = n.store.programmed (n.reach t).now :=
      (Node.clearProgrammed_store _ w).trans (n.programmedAt_store t w)
    have placed := (Store.LogPlaced.refl ((n.programmedAt t w).clearProgrammed w).store).placeWaiting
    rw [e] at totals ⊢
    refine .of_totals totals (fun hle => ?_) (fun hform => ?_) fun law => ?_
    · rw [Node.giveFreed_eq, Node.withStore_store]
      refine placed.staging ?_
      rw [cleared, Store.programmed_staging, List.length_tail]
      exact (Nat.sub_le _ 1).trans hle
    · rw [Node.StoreForm, Node.giveFreed_eq, Node.withStore_store]
      show Memory.wf (Node.placeWaiting _).store.cells = true
      rw [placed.cells, cleared]
      exact Store.programmed_wf hform _
    · exact (((law.freedRoom.programmedAt t w).clearProgrammed w).logPlaced placed
        (Node.cards_of_tablePart (Node.placeWaiting_tablePart _))).giveFreed _

/-! ### The rows of the card table (R29, R33 to R36, R89) -/

/-- A card row placed as the staging queue admits it uses an entry kept for the card table first. -/
theorem Store.place_cardRow {st : Store} {w : RowWrite} (hw : w.region.isLog = false) (now : Moment) :
    (st.place now w).staging.length = st.staging.length + 1 ∧ (st.place now w).forLog = st.forLog ∧
      (st.place now w).forCards = st.forCards - 1 ∧ (st.place now w).cells = st.cells := by
  simp [hw]

/-- With a card row admitted the queue takes it within its bound and the law of its free entries. -/
theorem Node.cardRow_room (hadmit : n.cardsAdmitted = true) {w : RowWrite} (hw : w.region.isLog = false) (now : Moment) :
    (n.store.place now w).staging.length ≤ stagingCapacity ∧ (n.FreedLaw → (n.store.place now w).staging.length +
      (n.store.place now w).forLog + (n.store.place now w).forCards ≤ stagingCapacity) := by
  obtain ⟨hstaging, hlog, hcards, -⟩ := Store.place_cardRow (st := n.store) hw now
  obtain ⟨-, hlt⟩ := n.cardsAdmitted_iff.mp hadmit
  rw [hstaging, hlog, hcards]
  refine ⟨by omega, fun law => ?_⟩
  have hroom := law.room
  rw [law.entriesForLog] at hlt
  omega

theorem Node.settleUpdate_store (n : Node) (u : CardUpdate) : (n.settleUpdate u).store = n.store := by
  obtain ⟨update, same⟩ := n.settleUpdate_same u
  exact same.store

theorem Node.settleUpdate_work (n : Node) (u : CardUpdate) (h : n.log.hasWork = true) :
    (n.settleUpdate u).log.hasWork = true := by
  obtain ⟨update, same⟩ := n.settleUpdate_same u
  have hlog : { (n.settleUpdate u).log with harvest := n.log.harvest } = n.log := same.logBut
  rw [← hlog] at h
  exact h

theorem Node.KeepsLaws.workOp (n : Node) {f : Node → Nat → CardOp → Option Node}
    (hf : ∀ {m : Node} {index : Nat} {op : CardOp}, f n index op = some m → n.WorksOp (n.cards.changesRow op) m) :
    n.KeepsLaws (n.workOp f) := by
  have totals := (Node.KeepsTotals.refl n).workOp hf
  rcases n.workOp_works hf with e | ⟨index, op, rest, buffered, m, hp, hu, hadmit, works, e⟩
  · exact e.symm ▸ .refl n
  · rw [e] at totals ⊢
    have hrows := Cards.rowsWaiting_of_front hp hu
    have hwork (h : n.log.hasWork = true) := m.settleUpdate_work ⟨rest, buffered⟩ (works.work h)
    cases hchanges : n.cards.changesRow op with
    | false =>
      have hstore := (m.settleUpdate_store ⟨rest, buffered⟩).trans (works.same hchanges)
      refine .of_totals totals ?_ ?_ fun law => law.of_none ?_ hstore hwork
      · rw [hstore]; exact id
      · rw [Node.StoreForm, Node.StoreForm, hstore]; exact id
      · exact Nat.le_zero.mp (by simpa [hrows, hchanges] using law.cards)
    | true =>
      obtain ⟨w, hw, hplaced⟩ := works.placed hchanges
      have hstore := (m.settleUpdate_store ⟨rest, buffered⟩).trans hplaced
      obtain ⟨hstaging, hroom⟩ := Node.cardRow_room (hadmit hchanges) hw n.now
      obtain ⟨-, hlog, hcards, hcells⟩ := Store.place_cardRow (st := n.store) hw n.now
      refine .of_totals totals ?_ ?_ fun law => ⟨?_, ?_, ?_⟩
      · rw [hstore]; exact fun _ => hstaging
      · rw [Node.StoreForm, Node.StoreForm, hstore, hcells]; exact id
      · rw [hstore]; exact hroom law
      · rw [hstore, hlog]; exact hwork ∘ law.log
      · have hone : n.store.forCards ≤ 1 := by simpa [hrows, hchanges] using law.cards
        rw [hstore, hcards]
        omega

/-- With no row of the card table to place, a change of the table that leaves the store keeps the laws. -/
theorem Node.KeepsLaws.of_noRows (totals : n.KeepsTotals m) (hstore : m.store = n.store) (hrows : n.cards.rowsWaiting = 0)
    (hwork : n.log.hasWork = true → m.log.hasWork = true) : n.KeepsLaws m := by
  refine .of_totals totals ?_ ?_ fun law => law.of_none ?_ hstore hwork
  · rw [hstore]; exact id
  · rw [Node.StoreForm, Node.StoreForm, hstore]; exact id
  · exact Nat.le_zero.mp (hrows ▸ law.cards)

theorem Node.KeepsLaws.takeUpdate (n : Node) : n.KeepsLaws n.takeUpdate := by
  unfold Node.takeUpdate
  split
  next hp hu _ =>
    exact .of_noRows ((Node.KeepsTotals.refl n).settleUpdate _) (n.settleUpdate_store _) (Cards.rowsWaiting_of_idle hp hu)
      (n.settleUpdate_work _)
  · exact .refl n

theorem Node.KeepsLaws.workClear (n : Node) {op : CardOp} (hop : n.cards.changesRow op = false) (phase : TablePhase) :
    n.KeepsLaws (n.workClear op phase) := by
  have leaves := (Node.KeepsForm.refl n).updateLeaves
  unfold Node.workClear
  split
  next u hp hu =>
    split
    next index front rest hops =>
      split
      next hfront =>
        have hrows : n.cards.rowsWaiting = 0 := by
          obtain ⟨ops, buffered⟩ := u
          obtain rfl : ops = (index, front) :: rest := hops
          rw [Cards.rowsWaiting_of_front hp hu, hfront, hop]
          rfl
        exact .of_noRows ((Node.KeepsTotals.refl n).updateLeaves.withCards _) leaves.store hrows leaves.work
      · exact .refl n
    · exact .refl n
  · exact .refl n

theorem Node.KeepsLaws.clearRow (n : Node) : n.KeepsLaws n.clearRow := by
  unfold Node.clearRow
  split
  next region rows row hclearing hprogress =>
    split
    next hplace =>
      have hregion : region.isLog = false := by
        unfold Cards.clearing at hclearing
        split at hclearing <;> cases hclearing <;> rfl
      have hbefore : n.cards.rowsWaiting = rows - row := Cards.rowsWaiting_of_clearing hclearing hprogress
      have hafter : ({ n.cards with progress := some (row + 1) } : Cards).rowsWaiting = rows - (row + 1) :=
        Cards.rowsWaiting_of_clearing (c := { n.cards with progress := some (row + 1) }) hclearing rfl
      obtain ⟨hstaging, hroom⟩ := Node.cardRow_room hplace.2 (w := ⟨region, row, emptyRow⟩) hregion n.now
      obtain ⟨-, hlog, hcards, hcells⟩ := Store.place_cardRow (st := n.store) (w := ⟨region, row, emptyRow⟩) hregion n.now
      refine .of_totals (((Node.KeepsTotals.refl n).placeRow _ _ _).withCards _) (fun _ => hstaging) (fun hform => ?_)
        fun law => ⟨hroom law, ?_, ?_⟩
      · exact (congrArg (Memory.wf · = true) hcells).mpr hform
      · exact fun h => law.log (hlog ▸ h)
      · have hle := law.cards
        refine (hcards.le.trans ?_).trans hafter.ge
        omega
    · exact .refl n
  · exact .refl n

theorem Node.KeepsLaws.cardScanEnd (n : Node) : n.KeepsLaws n.cardScanEnd := by
  unfold Node.cardScanEnd
  split
  next hp =>
    have hrows : n.cards.rowsWaiting = 0 := by simp [Cards.rowsWaiting, Cards.clearing, hp]
    have after := (Node.KeepsForm.refl (n.withCards (n.store.scanCards n.cards))).resumeEvaluation.evaluateStart.pressTrigger
    exact .of_noRows (((Node.KeepsTotals.refl n).withCards _).form after) after.store hrows after.work
  · exact .refl n

/-! ### Every command -/

/-- The answer keeps the laws of the node before. -/
def State.LawsKeptBy (s : State) (o : Host.Outcome State Fault Refusal) : Prop :=
  ∀ s', o = .next s' → s.node.KeepsLaws s'.node

section
variable {s : State} {dt : Nat} {f : Node → Node}

theorem keepsLaws_perform (hf : ∀ n : Node, n.KeepsLaws (f n)) : s.LawsKeptBy (s.perform dt f) := by
  intro s' h
  rw [State.perform_next.mp h]
  exact .form_before ((Node.KeepsForm.refl _).advance dt) rfl (hf _)

theorem keepsLaws_live (hf : ∀ n : Node, n.KeepsLaws (f n)) : s.LawsKeptBy (s.perform dt (fun n => n.whenLive f)) :=
  keepsLaws_perform fun n => .ite (hf n) (.refl n)

theorem keepsLaws_station (hf : ∀ n : Node, n.KeepsLaws (f n)) : s.LawsKeptBy (s.perform dt (fun n => n.whenStation f)) :=
  keepsLaws_perform fun n => .ite (hf n) (.refl n)

end

/-- Every command keeps the laws. -/
theorem exec_keepsLaws (i : Instr) (s : State) : s.LawsKeptBy (exec i s) := by
  cases i with
  | hatchClosed _ reading => exact keepsLaws_station fun n => .hatchCloses n reading
  | lift _ => exact keepsLaws_station .lifts
  | cardUpdate _ => exact keepsLaws_station .takeUpdate
  | add _ => exact keepsLaws_station fun n => .workOp n Node.workAdd_works
  | remove _ => exact keepsLaws_station fun n => .workOp n Node.workRemove_works
  | revokeAdd _ => exact keepsLaws_station fun n => .workOp n Node.workRevokeAdd_works
  | revokeRemove _ => exact keepsLaws_station fun n => .workOp n Node.workRevokeRemove_works
  | clear _ => exact keepsLaws_station fun n => .workClear n rfl _
  | revokeClear _ => exact keepsLaws_station fun n => .workClear n rfl _
  | clearRowWrite _ => exact keepsLaws_station .clearRow
  | cardTableScanEnd _ => exact keepsLaws_station .cardScanEnd
  | rowProgramEnd _ => exact keepsLaws_station .programEnds
  | recordAppend _ => exact keepsLaws_station .appendOldest
  | accountingWrite _ => exact keepsLaws_station .writeAccounting
  | confirmMarkWrite _ => exact keepsLaws_station .writeMark
  | logScanEnd _ => exact keepsLaws_station .logScanEnd
  | tallyNotice _ => exact keepsLaws_station fun n => .ite (.taking n _ .hearTally) (.refl n)
  | clockSecond _ => exact keepsLaws_station .clockSecond
  | time _ => exact keepsLaws_live fun n => .ite (.taking n _ .hearTime) (.refl n)
  | powerOn _ => exact keepsLaws_perform fun n => .startUnits_withPower n _ _
  | resetPin _ => exact keepsLaws_perform .releaseReset
  | restart _ => exact keepsLaws_live fun n => .taking n _ fun m _ => .startUnits m _
  | resetPinHeld _ => exact keepsLaws_perform .holdReset
  | supplyFails _ => exact keepsLaws_perform fun n => .startUnits_withPower n _ _
  | _ => exact fun s' h => .of_form (exec_keepsForm rfl s s' h)

end Sys2Proof.Machine

/-- Settles O56: the command at the front keeps the laws, whatever it is. -/
theorem tablesKeepTheirForm : Obligations.TablesKeepTheirForm := by
  intro s s' hstep
  have kept : s.node.KeepsLaws s'.node := by
    unfold step at hstep
    split at hstep
    · exact Host.Outcome.next.inj hstep ▸ .refl _
    next i rest _ => exact exec_keepsLaws i ⟨s.node, rest⟩ s' hstep
  refine ⟨fun h => ?_, fun hlt law => ?_, kept.form, kept.freed⟩
  · obtain ⟨hlists, hstaging, hentries⟩ := s.node.withinCapacities_iff.mp h
    exact s'.node.withinCapacities_iff.mpr ⟨kept.lists hlists, kept.staging hstaging, kept.entries hentries⟩
  · exact s'.node.tallyLaw_iff.mpr (kept.tally hlt (s.node.tallyLaw_iff.mp law))
end

section
/-! The rollover (R80, R81): what becomes of the append list and the accounting content, and of every other unit; O25. -/

open Sys2Proof Sys2Proof.Machine

namespace Sys2Proof.Machine

/-! ### The deposits of the closing day that find the log full (R81) -/

/-- How many items of a list are overflow deposits. -/
def overflowDeposits (items : List LogEntry) : Nat := (items.filter (·.isOverflow)).length

/-- The item at a rollover that stands behind `ahead` items with room for `room` records: a DEPOSIT that finds none becomes an
overflow deposit. -/
def closedItem (room ahead : Nat) (e : LogEntry) : LogEntry :=
  if e.isDeposit = true ∧ room ≤ ahead then { e with body := .overflowDeposit } else e

theorem LogEntry.isOverflow_iff (e : LogEntry) : e.isOverflow = true ↔ e.body = .overflowDeposit := by
  simp [LogEntry.isOverflow]

/-- A deposit is one of which a record may be made, or an overflow deposit. -/
theorem LogEntry.isDeposit_iff (e : LogEntry) : e.isDeposit = true ↔
    (∃ card charge unchecked redirected service, e.body = .deposit card charge unchecked redirected service) ∨
      e.body = .overflowDeposit := by
  unfold LogEntry.isDeposit
  split <;> simp_all

/-- What closing the items gives: the accounting content `b` and the items `closed` in place of `a` and `items`. -/
structure ClosesItems (room : Nat) (a : Accounting) (items : List LogEntry) (b : Accounting) (closed : List LogEntry) : Prop where
  length  : closed.length = items.length
  each    : ∀ (k : Nat) (e : LogEntry), items[k]? = some e →
    closed[k]? = some (closedItem room ((items.take k).filter (fun x => !x.isOverflow)).length e)
  events  : (closed.filter LogEntry.isEvent).length = (items.filter LogEntry.isEvent).length
  same    : { b with overflowCount := a.overflowCount, overflowCharge := a.overflowCharge } = a
  counted : ∃ c, overflowDeposits closed = overflowDeposits items + c ∧
    b.overflowCount = if c = 0 then a.overflowCount else min 65535 (a.overflowCount + c)

section
variable {room room' ahead : Nat} {a b : Accounting} {e : LogEntry} {rest closed : List LogEntry}

/-- An item in front that stays as it is. -/
theorem ClosesItems.cons (h : ClosesItems room' a rest b closed) (hself : closedItem room 0 e = e)
    (hrest : ∀ ahead x, closedItem room' ahead x = closedItem room (ahead + (if e.isOverflow then 0 else 1)) x) :
    ClosesItems room a (e :: rest) b (e :: closed) where
  length := by simp [h.length]
  each := by
    rintro (_ | k) x hx
    · obtain rfl : e = x := by simpa using hx
      simp [hself]
    · have := h.each k x (by simpa using hx)
      rw [hrest] at this
      cases ho : e.isOverflow <;> simp_all
  events := by
    have := h.events
    cases he : e.isEvent <;> simp_all
  same := h.same
  counted := by
    obtain ⟨c, hc, hcount⟩ := h.counted
    refine ⟨c, ?_, hcount⟩
    unfold overflowDeposits at hc ⊢
    cases ho : e.isOverflow <;> simp [ho, hc]
    omega

/-- A DEPOSIT in front for which the log has no room is counted. -/
theorem ClosesItems.overflow {charge : Nat} (h : ClosesItems 0 (a.overflowed charge) rest b closed) (hdeposit : e.isDeposit = true)
    (hnew : e.isOverflow = false) : ClosesItems 0 a (e :: rest) b ({ e with body := .overflowDeposit } :: closed) where
  length := by simp [h.length]
  each := by
    rintro (_ | k) x hx
    · obtain rfl : e = x := by simpa using hx
      simp [closedItem, hdeposit]
    · have := h.each k x (by simpa using hx)
      simpa [closedItem] using this
  events := by
    have := h.events
    simp_all [LogEntry.isEvent, LogEntry.isDeposit]
  same := (congrArg (fun x : Accounting => { x with
    overflowCount := a.overflowCount, overflowCharge := a.overflowCharge }) h.same : _)
  counted := by
    obtain ⟨c, hc, hcount⟩ := h.counted
    refine ⟨c + 1, ?_, ?_⟩
    · unfold overflowDeposits at hc ⊢
      have hcounts : ({ e with body := .overflowDeposit } : LogEntry).isOverflow = true := rfl
      simp only [List.filter_cons, hnew, hcounts, if_true, List.length_cons, hc, Bool.false_eq_true, if_false]
      omega
    · rw [hcount]
      simp only [Accounting.overflowed, satAdd, top16]
      split <;> simp <;> omega

end

theorem closeItems_closes (room : Nat) (a : Accounting) (items : List LogEntry) :
    ClosesItems room a items (closeItems room a items).1 (closeItems room a items).2 := by
  induction items generalizing room a with
  | nil => exact ⟨rfl, nofun, rfl, rfl, 0, rfl, rfl⟩
  | cons e rest ih =>
    unfold closeItems
    split
    next charge _ _ _ hbody =>
      exact (ih 0 _).overflow (by simp [LogEntry.isDeposit, hbody]) (by simp [LogEntry.isOverflow, hbody])
    next room _ _ hbody =>
      have ho : e.isOverflow = true := e.isOverflow_iff.mpr hbody
      refine (ih room a).cons ?_ fun ahead x => by simp [ho]
      unfold closedItem
      split
      · exact hbody ▸ rfl
      · rfl
    next room _ _ hoverflow hdeposit =>
      have ho : e.isOverflow = false := by simpa using mt e.isOverflow_iff.mp hoverflow
      refine (ih (room - 1) a).cons (room := room) ?_ fun ahead x => ?_
      · unfold closedItem
        split
        next h =>
          rcases e.isDeposit_iff.mp h.1 with ⟨card, charge, unchecked, redirected, service, hbody⟩ | hbody
          · exact absurd (Nat.le_zero.mp h.2) (hdeposit card charge unchecked redirected service hbody)
          · exact absurd hbody hoverflow
        · rfl
      · have hiff : room - 1 ≤ ahead ↔ room ≤ ahead + 1 := by omega
        simp [closedItem, ho, hiff]

section
variable {l : Log}

/-- The items that a rollover passes with the day close are those of R81. -/
theorem Log.closeOverflow_closesWith (l : Log) : l.ClosesWith l.closeOverflow.appendList l.closeOverflow.accounting.overflowCount := by
  have closes := closeItems_closes (logCapacity - l.held.length) l.accounting l.appendList
  refine ⟨closes.length, fun k e he => (closes.each k e he).trans ?_, ?_⟩
  · have hfull (ahead : Nat) : logCapacity - l.held.length ≤ ahead ↔ 1024 ≤ l.held.length + ahead := by
      simp [logCapacity, Nat.add_comm]
    simp only [closedItem, hfull]
  · obtain ⟨c, hc, hcount⟩ := closes.counted
    refine hcount.trans ?_
    have hnew : overflowDeposits l.closeOverflow.appendList - overflowDeposits l.appendList = c :=
      Nat.sub_eq_of_eq_add ((hc.trans (Nat.add_comm _ _) : _))
    exact hnew ▸ rfl

/-- The events of the append list are as many as before. -/
theorem Log.closeOverflow_eventsHeld (l : Log) : l.closeOverflow.eventsHeld = l.eventsHeld := by
  have hevents := (closeItems_closes (logCapacity - l.held.length) l.accounting l.appendList).events
  exact congrArg (· + _) hevents

/-- Of the accounting content the overflow counters alone change (R81). -/
theorem Log.closeOverflow_accounting (l : Log) : { l.closeOverflow.accounting with
    overflowCount := l.accounting.overflowCount, overflowCharge := l.accounting.overflowCharge } = l.accounting :=
  (closeItems_closes (logCapacity - l.held.length) l.accounting l.appendList).same

end

/-! ### What the trigger and the missed-round test leave (R112, R166) -/

/-- What the trigger of a claim and the missed-round test leave as it was. -/
structure Node.Undisturbed (n m : Node) : Prop where
  now      : m.now = n.now
  hatch    : m.hatch = n.hatch
  sounding : m.sounding = n.sounding
  views    : m.neighbour.views = n.neighbour.views
  expected : m.neighbour.expected = n.neighbour.expected
  cards    : m.cards = n.cards
  store    : m.store = n.store
  tally    : m.tally = n.tally
  clock    : m.clock = n.clock
  logBut   : { m.log with harvest := n.log.harvest } = n.log
  untold   : m.untold = n.untold

section
variable {n m p : Node}

theorem Node.Undisturbed.refl (n : Node) : n.Undisturbed n := ⟨rfl, rfl, rfl, rfl, rfl, rfl, rfl, rfl, rfl, rfl, rfl⟩

theorem Node.Undisturbed.of_talk (h : n.SameButTalk m) (untold : m.untold = n.untold) : n.Undisturbed m :=
  ⟨h.now, h.hatch, h.sounding, h.views, h.expected, h.cards, h.store, h.tally, h.clock, h.logBut, untold⟩

theorem Node.Undisturbed.pressTrigger (n : Node) : n.Undisturbed n.pressTrigger := by
  obtain ⟨same, -⟩ := n.pressTrigger_same
  exact ⟨same.now, same.hatch, same.sounding, (congrArg Neighbour.views same.neighbour :),
    (congrArg Neighbour.expected same.neighbour :), same.cards, same.store, same.tally, same.clock, same.logBut,
    n.pressTrigger_untold⟩

theorem Node.Undisturbed.ite {c : Prop} [Decidable c] (h : n.Undisturbed m) (k : n.Undisturbed p) :
    n.Undisturbed (if c then m else p) := by
  split
  · exact h
  · exact k

theorem Node.setCall_untold (n : Node) (c : Call) : (n.setCall c).untold = n.untold := (n.withCall c).noticeCheck_untold

theorem Node.missedRound_undisturbed (n : Node) : n.Undisturbed n.missedRound := by
  have called : n.Undisturbed (n.newCall none) := by
    have begun := n.setCall_talk n.call.begun
    have huntold := n.setCall_untold n.call.begun
    rw [n.newCall_eq]
    split
    · have offered (t : Telegram) : (n.setCall n.call.begun).SameButTalk ((n.setCall n.call.begun).offerOnly .callUnit t) :=
        (Node.sameButOffers_offerOnly _ _ t).talk (Node.offer_polarity _ _ t)
      exact .of_talk ((begun.trans (offered _)).trans (Node.setCall_talk _ _))
        ((Node.setCall_untold _ _).trans ((Node.offerOnly_untold _ _ _).trans huntold))
    · exact .of_talk begun huntold
  unfold Node.missedRound
  split
  · split
    · exact called
    · exact .refl n
  · exact .refl n

/-! ### The rollover (R80, R81, R94, R97) -/

/-- The record of the closing day (R80): its totals, and the overflow count with the deposits that will find the log full. -/
def Node.dayCloseEntry (n : Node) : LogEntry :=
  n.entryOf (.dayClose n.log.accounting.total n.log.accounting.count n.log.closeOverflow.accounting.overflowCount)
    n.sounding.fill

theorem Node.dayClosed_spec (n : Node) : ∃ l, n.dayClosed = n.withLog l ∧ l.held = n.log.held ∧
    l.accounting = n.log.closeOverflow.accounting ∧
    (n.log.phase = .opened → l = n.log.closeOverflow.enterEvent n.dayCloseEntry) := by
  have hsame := n.log.closeOverflow_accounting
  have htotal : n.log.closeOverflow.accounting.total = n.log.accounting.total := (congrArg Accounting.total hsame :)
  have hcount : n.log.closeOverflow.accounting.count = n.log.accounting.count := (congrArg Accounting.count hsame :)
  unfold Node.dayClosed Node.requestRecord
  rw [htotal, hcount]
  split
  next hscan => exact ⟨_, rfl, rfl, rfl, fun hopen => absurd (hscan.symm.trans hopen) nofun⟩
  · exact ⟨_, rfl, Log.enterEvent_held _ _, Log.enterEvent_accounting _ _, fun _ => rfl⟩

/-- What a rollover passes to the log, if that is OPEN: the items of the closing day, and behind them the DAY CLOSE, lost where the
event list is full. -/
def Node.PassesDayClose (n m : Node) : Prop :=
  ∃ items overflow, n.log.ClosesWith items overflow ∧
    (n.log.eventsHeld < 3 → m.log.appendList = items ++
      [⟨.dayClose n.log.accounting.total n.log.accounting.count overflow, n.clock.day, n.clock.seconds.map (· / 2),
        n.control.settings.fraction, n.sounding.fill⟩]) ∧
    (3 ≤ n.log.eventsHeld → m.log.appendList = items ∧ m.log.lost = min 65535 (n.log.lost + 1) ∧ m.log.due = true)

/-- What a rollover to `day` makes of every unit, with `clock` the clock after it. -/
structure Node.RolledOver (n : Node) (day : Nat) (clock : Clock) (m : Node) : Prop where
  now        : m.now = n.now
  hatch      : m.hatch = n.hatch
  sounding   : m.sounding = n.sounding
  views      : m.neighbour.views = n.neighbour.views
  expected   : m.neighbour.expected = n.neighbour.expected
  cards      : m.cards = n.cards
  store      : m.store = n.store
  untold     : m.untold = n.untold
  clock      : m.clock = clock
  tally      : m.tally = { n.tally with entries := [], touches := 0 }
  held       : m.log.held = n.log.held
  accounting : m.log.accounting = { n.log.accounting with
    day := day, total := 0, count := 0, overflowCount := 0, overflowCharge := 0, rebuilt := false }
  passes     : n.log.phase = .opened → n.PassesDayClose m

theorem Node.RolledOver.undisturbed {day : Nat} {clock : Clock} (h : n.RolledOver day clock m) (k : m.Undisturbed p) :
    n.RolledOver day clock p where
  now := k.now.trans h.now
  hatch := k.hatch.trans h.hatch
  sounding := k.sounding.trans h.sounding
  views := k.views.trans h.views
  expected := k.expected.trans h.expected
  cards := k.cards.trans h.cards
  store := k.store.trans h.store
  untold := k.untold.trans h.untold
  clock := k.clock.trans h.clock
  tally := k.tally.trans h.tally
  held := (congrArg Log.held k.logBut : _).trans h.held
  accounting := (congrArg Log.accounting k.logBut : _).trans h.accounting
  passes := fun hopen => by
    have happend : p.log.appendList = m.log.appendList := (congrArg Log.appendList k.logBut : _)
    have hlost : p.log.lost = m.log.lost := (congrArg Log.lost k.logBut : _)
    have hdue : p.log.due = m.log.due := (congrArg Log.due k.logBut : _)
    have hpasses := h.passes hopen
    unfold Node.PassesDayClose at hpasses ⊢
    rwa [happend, hlost, hdue]

/-- A DAY CLOSE passed to an OPEN log waits behind the items, or is lost (R94, R97). -/
theorem Node.passesDayClose_of (h : m.log.appendList = (n.log.closeOverflow.enterEvent n.dayCloseEntry).appendList)
    (hlost : m.log.lost = (n.log.closeOverflow.enterEvent n.dayCloseEntry).lost)
    (hdue : m.log.due = (n.log.closeOverflow.enterEvent n.dayCloseEntry).due) : n.PassesDayClose m := by
  refine ⟨_, _, n.log.closeOverflow_closesWith, fun hroom => ?_, fun hfull => ?_⟩
  · rw [h, Log.enterEvent_appendList (n.log.closeOverflow_eventsHeld ▸ hroom)]
    rfl
  · have hlose : n.log.closeOverflow.enterEvent n.dayCloseEntry = n.log.closeOverflow.lose n.dayCloseEntry :=
      if_neg (n.log.closeOverflow_eventsHeld ▸ Nat.not_lt.mpr hfull)
    rw [h, hlost, hdue, hlose]
    exact ⟨rfl, rfl, Bool.or_true _⟩

theorem Node.dayEntered_rolledOver (n : Node) (day : Nat) :
    n.RolledOver day { n.clock with day := day, enteredAt := some n.now } (n.dayEntered day) := by
  obtain ⟨l, hclosed, hheld, haccounting, hopened⟩ := n.dayClosed_spec
  unfold Node.dayEntered
  rw [hclosed]
  refine ⟨rfl, rfl, rfl, rfl, rfl, rfl, rfl, rfl, rfl, rfl, hheld, ?_, fun hopen => ?_⟩
  · rw [← n.log.closeOverflow_accounting, ← haccounting]
    rfl
  · obtain rfl := hopened hopen
    exact Node.passesDayClose_of rfl rfl rfl

theorem Node.rollover_rolledOver (n : Node) (day : Nat) :
    n.RolledOver day { n.clock with day := day, enteredAt := some n.now } (n.rollover day) :=
  (n.dayEntered_rolledOver day).undisturbed (Node.missedRound_undisturbed _)

end

/-! ### One second of the clock (R78, R80) -/

theorem Clock.dayHeld_iff (c : Clock) (now : Moment) :
    c.dayHeld now = true ↔ ∀ e, c.enteredAt = some e → dayHold < now - e := by
  unfold Clock.dayHeld
  split <;> simp_all

/-- The seconds of day a second after `t`. -/
def nextSecond (t : Nat) : Nat := if t + 1 = daySeconds then 0 else t + 1

/-- The second after `t` reaches the rollover instant with a day long enough in force. -/
abbrev Node.rollsAfter (n : Node) (t : Nat) : Prop := nextSecond t = n.rolloverInstant ∧ n.clock.dayHeld n.now = true

/-- The node with the seconds of day given. -/
def Node.withSeconds (n : Node) (seconds : Option Nat) : Node := n.withClock { n.clock with seconds := seconds }

/-- Behind a rollover the seconds of day change the clock alone. -/
theorem Node.RolledOver.withSeconds {n m : Node} {day : Nat} {clock : Clock} (h : n.RolledOver day clock m)
    (seconds : Option Nat) : n.RolledOver day { clock with seconds := seconds } (m.withSeconds seconds) :=
  { h with clock := congrArg (fun c : Clock => { c with seconds := seconds }) h.clock }

/-- A second moves the clock, behind a rollover if it reaches one, and then the trigger may be evaluated. -/
theorem Node.clockSecond_undisturbed {n : Node} {t : Nat} (h : n.clock.seconds = some t) :
    ((if n.rollsAfter t then n.rollover n.clock.dayByHour else n).withSeconds (some (nextSecond t))).Undisturbed
      n.clockSecond := by
  unfold Node.clockSecond
  rw [h]
  exact .ite (.pressTrigger _) (.refl _)

end Sys2Proof.Machine

/-- Settles O25: the second with the rollover, or without it, and then what the trigger leaves. -/
theorem clockRunsAndRollsOver : Obligations.ClockRunsAndRollsOver := by
  intro s dt hacts
  have hexec : exec (.clockSecond dt) s = .next ⟨(s.node.advance dt).clockSecond, s.pending⟩ :=
    State.perform_station hacts dt _
  refine ⟨fun hunset => ?_, fun t hset => ?_⟩
  · rw [hexec]
    have hstays : (s.node.advance dt).clockSecond = s.node.advance dt := by
      unfold Node.clockSecond
      rw [show (s.node.advance dt).clock.seconds = none from hunset]
    rw [hstays]
    rfl
  · intro next rolls
    have hrolls : (s.node.advance dt).rollsAfter t ↔ rolls := and_congr_right' (Clock.dayHeld_iff _ _)
    have after := Node.clockSecond_undisturbed (n := s.node.advance dt) hset
    by_cases h : rolls
    · rw [if_pos (hrolls.mpr h)] at after
      have rolled := (((s.node.advance dt).rollover_rolledOver _).withSeconds _).undisturbed after
      refine ⟨_, hexec, rolled.now, rolled.hatch, rolled.sounding, rolled.views, rolled.expected, rolled.cards, rolled.store,
        rolled.held, fun hnot => absurd h hnot, fun _ => ⟨rolled.clock, rolled.tally, rolled.accounting, fun hopen => ?_⟩⟩
      obtain ⟨items, overflow, hcloses, hroom, hfull⟩ := rolled.passes hopen
      refine ⟨items, overflow, hcloses, fun hlt => ?_, hfull⟩
      rw [hroom hlt, show (s.node.advance dt).clock.seconds = some t from hset]
      rfl
    · rw [if_neg (mt hrolls.mp h)] at after
      exact ⟨_, hexec, after.now, after.hatch, after.sounding, after.views, after.expected, after.cards, after.store,
        (congrArg Log.held after.logBut : _), fun _ => ⟨after.clock, after.tally, (congrArg Log.accounting after.logBut : _),
          (congrArg Log.appendList after.logBut : _)⟩, fun hnow => absurd hnow h⟩
end

section
/-! O26: a TIME telegram (R79). -/

open Sys2Proof Sys2Proof.Machine

namespace Sys2Proof.Machine

/-- The station clock takes TIMEs alone. -/
theorem taker_time : (fun r : Received => r.telegram.kind.taker == Kind.time.taker) = fun r => r.telegram.kind == .time := by
  funext r
  cases r.telegram.kind <;> rfl

theorem Node.takingTime_of {n : Node} {r : Received} (h : n.line.buffer.find? (fun r => r.telegram.kind == .time) = some r)
    (f : Node → Received → Node) : n.taking .time f = f (n.withLine { n.line with
      buffer := n.line.buffer.eraseP (fun r => r.telegram.kind == .time) }) r := by
  have hkind : r.telegram.kind = .time := by simpa using List.find?_some h
  rw [Node.taking_of (r := r) (by rw [oldestOf]; exact taker_time ▸ h) hkind f, withoutOldest]
  exact congrArg (fun p => f (n.withLine { n.line with buffer := n.line.buffer.eraseP p }) r) taker_time

/-- Two seconds of day differ by more than 2. -/
theorem two_lt_absDiff_iff (a b : Nat) : 2 < absDiff a b ↔ a + 2 < b ∨ b + 2 < a := by
  unfold absDiff
  split <;> omega

section
variable {n : Node} {day seconds : Nat}

/-- A TIME with seconds of no day, or of an earlier day, is ignored. -/
theorem Node.takeTime_ignored (h : 86400 ≤ seconds ∨ day < n.clock.day) : n.takeTime day seconds = n := if_pos h

/-- A TIME of the own day sets the seconds. -/
theorem Node.takeTime_own (hs : seconds < 86400) (hd : day = n.clock.day) :
    (n.withSeconds (some (timeSeconds n.clock.seconds seconds))).Undisturbed (n.takeTime day seconds) := by
  subst hd
  unfold Node.takeTime
  rw [if_neg (by simp only [daySeconds]; omega), if_neg (Nat.lt_irrefl _)]
  dsimp only
  split
  next hsame =>
    have hclock : n.withSeconds (some (timeSeconds n.clock.seconds seconds)) = n := by
      rw [← hsame]
      rfl
    rw [hclock]
    exact .refl n
  · exact .pressTrigger _

/-- A TIME of a later day rolls over to it, once, and sets the seconds. -/
theorem Node.takeTime_later (hs : seconds < 86400) (hd : n.clock.day < day) :
    n.RolledOver day ⟨day, some seconds, some n.now⟩ (n.takeTime day seconds) := by
  unfold Node.takeTime
  rw [if_neg (by simp only [daySeconds]; omega), if_pos hd]
  exact ((n.rollover_rolledOver day).withSeconds (some seconds)).undisturbed (.pressTrigger _)

end

/-- The node once its oldest TIME has left the receive buffer. -/
def Node.timeTaken (n : Node) : Node :=
  n.withLine { n.line with buffer := n.line.buffer.eraseP (fun r => r.telegram.kind == .time) }

/-- With the log's scan ended a station takes the oldest TIME (R77, R145). -/
theorem exec_time {s : State} {dt : Nat} {r : Received} (hacts : s.node.StationActs) (hopen : s.node.log.phase = .opened)
    (hr : s.node.line.buffer.find? (fun r => r.telegram.kind == .time) = some r) :
    exec (.time dt) s = .next ⟨(s.node.advance dt).timeTaken.takeTime (field r.telegram.payload 0 2)
      (field r.telegram.payload 2 3), s.pending⟩ := by
  have hlive : (s.node.advance dt).live = true := hacts.1
  have hready : (s.node.advance dt).control.settings.role = .relay ∨ (s.node.advance dt).log.phase = .opened := .inr hopen
  have htaken : (s.node.advance dt).taking .time Node.hearTime = (s.node.advance dt).timeTaken.hearTime r :=
    Node.takingTime_of (n := s.node.advance dt) hr Node.hearTime
  have hrole : (s.node.advance dt).timeTaken.control.settings.role = .station := hacts.2
  have hlived := Node.whenLive_of hlive fun n =>
    if n.control.settings.role = .relay ∨ n.log.phase = .opened then n.taking .time Node.hearTime else n
  refine (congrArg (fun n => Host.Outcome.next (State.mk n s.pending)) hlived : _).trans ?_
  rw [if_pos hready, htaken, Node.hearTime, hrole]

/-- The seconds that a TIME of the own day leaves are those told when they differ by more than 2 (R79). -/
theorem timeSeconds_some (k seconds : Nat) :
    timeSeconds (some k) seconds = if k + 2 < seconds ∨ seconds + 2 < k then seconds else k := by
  simp only [timeSeconds, two_lt_absDiff_iff]

end Sys2Proof.Machine

/-- Settles O26: the oldest TIME leaves the buffer, and is ignored, or sets the seconds, or rolls the day over. -/
theorem timeSetsTheClock : Obligations.TimeSetsTheClock := by
  intro s dt r hacts hopen hr day secs c
  have hexec := exec_time (dt := dt) hacts hopen hr
  by_cases hignored : 86400 ≤ secs ∨ day < c.day
  · have hid : (s.node.advance dt).timeTaken.takeTime day secs = (s.node.advance dt).timeTaken :=
      Node.takeTime_ignored hignored
    refine ⟨_, hexec, ?_⟩
    rw [hid]
    exact ⟨rfl, rfl, rfl, rfl, rfl, rfl, rfl, fun _ => ⟨rfl, rfl, rfl⟩, fun hs hd => by omega, fun hs hd => by omega⟩
  · obtain ⟨hs, hd⟩ : secs < 86400 ∧ c.day ≤ day := by omega
    rcases hd.eq_or_lt with heq | hlt
    · have own := Node.takeTime_own (n := (s.node.advance dt).timeTaken) hs heq.symm
      refine ⟨_, hexec, own.now, Node.buffer_of_untold own.untold, own.hatch, own.sounding, own.cards, own.store,
        (congrArg Log.held own.logBut : _), fun h => absurd h hignored, fun _ _ => ⟨?_, own.tally,
          (congrArg Log.accounting own.logBut : _)⟩, fun _ h => absurd heq h.ne⟩
      refine own.clock.trans ?_
      show ({ c with seconds := some (timeSeconds c.seconds secs) } : Clock) = _
      cases hc : c.seconds with
      | none => rfl
      | some k =>
        rw [timeSeconds_some, apply_ite some]
    · have later := Node.takeTime_later (n := (s.node.advance dt).timeTaken) hs hlt
      exact ⟨_, hexec, later.now, Node.buffer_of_untold later.untold, later.hatch, later.sounding, later.cards, later.store,
        later.held, fun h => absurd h hignored, fun _ h => absurd h.symm hlt.ne,
        fun _ _ => ⟨later.clock, later.tally, later.accounting, later.passes hopen⟩⟩
end

section
/-! The rebuild of an empty tally table (R76): each card has the number of its held DEPOSITs of the day. -/

open Sys2Proof Sys2Proof.Machine

namespace Sys2Proof.Machine

/-! ### Entries of other cards -/

section
variable {card other : CardNumber} {entries : List TallyEntry} {raise : TallyEntry → TallyEntry} {stamp : Nat}

/-- A touch of one card's entry leaves what the table answers for another. -/
theorem tallyEntry_map_touchEntry_of_ne (hraise : ∀ e, (raise e).card = e.card) (hne : other ≠ card) :
    tallyEntry other (entries.map (touchEntry card raise stamp)) = tallyEntry other entries := by
  have hfind : (fun e : TallyEntry => e.card == other) ∘ touchEntry card raise stamp = fun e => e.card == other := by
    funext e
    simp [touchEntry_card hraise]
  rw [tallyEntry, List.find?_map, hfind, ← tallyEntry]
  cases hold : tallyEntry other entries with
  | none => rfl
  | some e => exact congrArg some (touchEntry_of_not fun hcard => hne ((tallyEntry_eq_some hold).2.symm.trans hcard))

/-- An entry added for one card leaves what the table answers for another. -/
theorem tallyEntry_append_of_ne {e : TallyEntry} (he : e.card ≠ other) :
    tallyEntry other (entries ++ [e]) = tallyEntry other entries := by
  simp [tallyEntry, List.find?_append, he]

end

/-! ### The table while it is rebuilt -/

/-- The table holds for each card the number `count` of its deposits, up to 15, and no heard count; its cards are among
`cards`, each with one entry; and nothing was lost. -/
structure Tally.Holds (t : Tally) (loss : Nat) (cards : List CardNumber) (count : CardNumber → Nat) : Prop where
  loss   : t.loss = loss
  once   : (t.entries.map (·.card)).Nodup
  among  : t.entries.map (·.card) ⊆ cards
  counts : ∀ card, (tallyEntry card t.entries).map (fun e => (e.loc, e.heard)) =
    if count card = 0 then none else some (min 15 (count card), 0)

section
variable {t : Tally} {loss : Nat} {cards : List CardNumber} {count : CardNumber → Nat} {card : CardNumber}

/-- A card without an entry finds room, if at most 384 cards are to have one. -/
theorem Tally.Holds.length_lt (h : t.Holds loss cards count) (hfew : cards.length ≤ tallyCapacity) (hcard : card ∈ cards)
    (hnone : tallyEntry card t.entries = none) : t.entries.length < tallyCapacity := by
  have hnew : card ∉ t.entries.map (·.card) := by
    rw [List.mem_map]
    rintro ⟨e, he, rfl⟩
    exact tallyEntry_eq_none_iff.mp hnone e he rfl
  have hsub : card :: t.entries.map (·.card) ⊆ cards := List.cons_subset.mpr ⟨hcard, h.among⟩
  have hle := ((List.nodup_cons.mpr ⟨hnew, h.once⟩).subperm hsub).length_le
  simp only [List.length_cons, List.length_map] at hle
  omega

/-- A card that may have an entry can be counted. -/
theorem Tally.Holds.counted (h : t.Holds loss cards count) (hfew : cards.length ≤ tallyCapacity) (hcard : card ∈ cards) :
    ∃ t', t.countDeposit card = some t' := by
  refine Option.ne_none_iff_exists'.mp fun hnone => ?_
  obtain ⟨hold, hroom⟩ := Tally.touch_eq_none_iff.mp hnone
  exact absurd (h.length_lt hfew hcard hold) (Nat.not_lt.mpr (roomInTally_eq_none_iff.mp hroom).1)

/-- With room for a new entry nothing is evicted. -/
theorem Tally.Holds.kept (h : t.Holds loss cards count) (hfew : cards.length ≤ tallyCapacity) (hcard : card ∈ cards)
    (hnone : tallyEntry card t.entries = none) {kept : List TallyEntry} (hkept : roomInTally t.entries = some kept) :
    kept = t.entries := by
  rcases roomInTally_eq_some hkept with ⟨-, rfl⟩ | ⟨hfull, -⟩
  · rfl
  · exact absurd (h.length_lt hfew hcard hnone) (Nat.not_lt.mpr hfull)

/-- A deposit counted raises its card's number by one. -/
theorem Tally.Holds.countDeposit (h : t.Holds loss cards count) (hfew : cards.length ≤ tallyCapacity) (hcard : card ∈ cards)
    {t' : Tally} (ht' : t.countDeposit card = some t') :
    t'.Holds loss cards (Function.update count card (count card + 1)) := by
  have counting := counting_deposit card
  have hown : (tallyEntry card t'.entries).map (fun e => (e.loc, e.heard)) = some (min 15 (count card + 1), 0) := by
    have hbefore := h.counts card
    rw [Tally.touch_entry counting ht']
    cases hold : tallyEntry card t.entries with
    | none =>
      have hzero : count card = 0 := by simpa [hold] using hbefore
      simp [hzero]
    | some e =>
      rw [hold] at hbefore
      split at hbefore
      · cases hbefore
      · obtain ⟨hloc, hheard⟩ : e.loc = min 15 (count card) ∧ e.heard = 0 := by simpa using hbefore
        simp only [Option.map_some, satAdd, hloc, hheard, Option.some.injEq, Prod.mk.injEq, and_true]
        omega
  have hother (other : CardNumber) (hne : other ≠ card) : tallyEntry other t'.entries = tallyEntry other t.entries := by
    rcases Tally.touch_eq_some ht' with ⟨-, rfl⟩ | ⟨hnone, kept, hkept, rfl⟩
    · exact tallyEntry_map_touchEntry_of_ne counting.sameCard hne
    · obtain rfl := h.kept hfew hcard hnone hkept
      exact tallyEntry_append_of_ne fun heq => hne heq.symm
  have hcards : t'.entries.map (·.card) = t.entries.map (·.card) ∨
      (tallyEntry card t.entries = none ∧ t'.entries.map (·.card) = t.entries.map (·.card) ++ [card]) := by
    rcases Tally.touch_eq_some ht' with ⟨-, rfl⟩ | ⟨hnone, kept, hkept, rfl⟩
    · left
      simp [touchEntry_card counting.sameCard]
    · right
      obtain rfl := h.kept hfew hcard hnone hkept
      exact ⟨hnone, List.map_append⟩
  refine ⟨(Tally.touch_loss ht').trans h.loss, ?_, ?_, fun other => ?_⟩
  · rcases hcards with e | ⟨hnone, e⟩ <;> rw [e]
    · exact h.once
    · refine List.nodup_append.mpr ⟨h.once, List.nodup_singleton _, ?_⟩
      simp only [List.forall_mem_map, List.mem_singleton, forall_eq]
      exact tallyEntry_eq_none_iff.mp hnone
  · rcases hcards with e | ⟨-, e⟩ <;> rw [e]
    · exact h.among
    · exact List.append_subset.mpr ⟨h.among, List.cons_subset.mpr ⟨hcard, List.nil_subset _⟩⟩
  · by_cases hsame : other = card
    · subst hsame
      simp [hown]
    · rw [hother other hsame, h.counts other, Function.update_of_ne hsame]

end

/-! ### The records of the rebuild -/

/-- The card of which a record is a DEPOSIT of the day. -/
def LogRecord.depositCard (day : Nat) (r : LogRecord) : Option CardNumber :=
  match r.entry.body with
  | .deposit card _ _ _ _ => if r.entry.day = day then some card else none
  | _ => none

theorem rebuildRecord_eq (day : Nat) (t : Tally) (r : LogRecord) : rebuildRecord day t r =
    ((r.depositCard day).map (fun card => (t.countDeposit card).getD t.lose)).getD t := by
  unfold rebuildRecord LogRecord.depositCard
  cases r.entry.body with
  | deposit card _ _ _ _ =>
    dsimp only
    split
    · simp only [Option.map_some, Option.getD_some]
      cases t.countDeposit card <;> rfl
    · rfl
  | _ => rfl

/-- How many DEPOSITs of the day the records hold for a card. -/
def depositsOn (day : Nat) (records : List LogRecord) (card : CardNumber) : Nat :=
  (records.filter (fun r => r.depositCard day == some card)).length

/-- The rebuild counts each DEPOSIT of the day once. -/
theorem Tally.Holds.rebuild {t : Tally} {loss : Nat} {cards : List CardNumber} {count : CardNumber → Nat}
    (h : t.Holds loss cards count) (hfew : cards.length ≤ tallyCapacity) (day : Nat) (records : List LogRecord)
    (hcards : ∀ r ∈ records, ∀ card, r.depositCard day = some card → card ∈ cards) :
    (records.foldl (rebuildRecord day) t).Holds loss cards (fun card => count card + depositsOn day records card) := by
  induction records generalizing t count with
  | nil => exact h
  | cons r rest ih =>
    rw [List.foldl_cons, rebuildRecord_eq]
    obtain ⟨hr, hrest⟩ := List.forall_mem_cons.mp hcards
    cases hdeposit : r.depositCard day with
    | none =>
      simpa [depositsOn, hdeposit] using ih h hrest
    | some card =>
      obtain ⟨t', ht'⟩ := h.counted hfew (hr card hdeposit)
      have hholds := h.countDeposit hfew (hr card hdeposit) ht'
      simp only [Option.map_some, Option.getD_some, ht']
      have hcount : (fun other => Function.update count card (count card + 1) other + depositsOn day rest other) =
          fun other => count other + depositsOn day (r :: rest) other := by
        funext other
        by_cases hsame : other = card
        · subst hsame
          simp [depositsOn, hdeposit]
          omega
        · have hne : ¬ card = other := fun h => hsame h.symm
          simp [depositsOn, hdeposit, hsame, hne]
      exact hcount ▸ ih hholds hrest

end Sys2Proof.Machine
end

section
/-! The writes of the deposit log (R89, R92, R95, R98, R103): the rows that they place, what they leave of the log and of the
entries kept of the staging queue; O30. -/

open Sys2Proof Sys2Proof.Machine

namespace Sys2Proof.Machine

/-! ### Rows of the log placed while the staging queue admits them -/

/-- The staging queue holds no more than its capacity, with the entries kept for the card table. -/
def Store.LogFits (st : Store) : Prop := st.staging.length + st.forCards ≤ stagingCapacity

/-- The store after as many of the log's rows, in their order, as the staging queue admits. -/
structure Store.PlacesRows (st : Store) (rows : List RowWrite) (st' : Store) : Prop where
  staging  : st'.staging = (st.staging ++ rows).take (stagingCapacity - st.forCards)
  forLog   : st'.forLog = st.forLog - (st'.staging.length - st.staging.length)
  forCards : st'.forCards = st.forCards
  cells    : st'.cells = st.cells

section
variable {st st' : Store} {rows : List RowWrite}

/-- With no rows nothing is placed. -/
theorem Store.PlacesRows.none (h : st.LogFits) : st.PlacesRows [] st where
  staging := by
    unfold Store.LogFits at h
    rw [List.append_nil, List.take_of_length_le (by omega)]
  forLog := by omega
  forCards := rfl
  cells := rfl

/-- With no entry free no row is placed. -/
theorem Store.PlacesRows.full (h : st.LogFits) (hfull : ¬ st.staging.length + st.forCards < stagingCapacity) :
    st.PlacesRows rows st where
  staging := by
    unfold Store.LogFits at h
    rw [List.take_append_of_le_length (by omega), List.take_of_length_le (by omega)]
  forLog := by omega
  forCards := rfl
  cells := rfl

/-- With an entry free the first row is placed, and then the others. -/
theorem Store.PlacesRows.cons {now : Moment} {w : RowWrite} (hw : w.region.isLog = true)
    (hfree : st.staging.length + st.forCards < stagingCapacity) (h : (st.place now w).PlacesRows rows st') :
    st.PlacesRows (w :: rows) st' := by
  have hstaging := h.staging
  have hforLog := h.forLog
  simp only [Store.place_staging, Store.place_forLog, Store.place_forCards, hw, if_true, List.append_assoc,
    List.singleton_append, List.length_append, List.length_singleton] at hstaging hforLog
  refine ⟨hstaging, ?_, by simpa [hw] using h.forCards, h.cells⟩
  have hlength := congrArg List.length hstaging
  simp only [List.length_take, List.length_append, List.length_cons] at hlength
  omega

end

theorem Log.SameButRows.trans {l k j : Log} (h : l.SameButRows k) (h' : k.SameButRows j) : l.SameButRows j := by
  unfold Log.SameButRows at *
  rw [← h, ← h']

section
variable {l k : Log} (h : l.SameButRows k)
include h

theorem Log.SameButRows.phase : k.phase = l.phase := (congrArg Log.phase h :)

theorem Log.SameButRows.accounting : k.accounting = l.accounting := (congrArg Log.accounting h :)

theorem Log.SameButRows.appendList : k.appendList = l.appendList := (congrArg Log.appendList h :)

theorem Log.SameButRows.mark : k.mark = l.mark := (congrArg Log.mark h :)

theorem Log.SameButRows.markAhead : k.markAhead = l.markAhead := (congrArg Log.markAhead h :)

theorem Log.SameButRows.lost : k.lost = l.lost := (congrArg Log.lost h :)

end

/-- A node whose log has placed rows: only the store and the log differ, and the log in what the placing of rows changes. -/
structure Node.PlacesRows (n : Node) (rows : List RowWrite) (m : Node) : Prop where
  frame : (n.withStore m.store).withLog m.log = m
  log   : n.log.SameButRows m.log
  store : n.store.PlacesRows rows m.store

/-- The rows of an accounting row write (R92). -/
def accountingRows (a : Accounting) : List RowWrite := [⟨.accounting, 0, accountingRow a⟩, ⟨.accounting, 1, lifetimeRow a⟩]

section
variable {n m : Node} {rows : List RowWrite}

theorem Node.PlacesRows.full (h : n.store.LogFits) (hfull : ¬ n.logAdmitted = true) : n.PlacesRows rows n :=
  ⟨rfl, .refl _, .full h (mt n.logAdmitted_iff.mpr hfull)⟩

theorem Node.PlacesRows.cons {region : Region} {row : Nat} {bytes : List Byte} {l : Log} (hadmit : n.logAdmitted = true)
    (hregion : region.isLog = true)
    (h : ((n.placeRow region row bytes).withLog l).PlacesRows rows m) (hl : n.log.SameButRows l := by rfl) :
    n.PlacesRows (⟨region, row, bytes⟩ :: rows) m where
  frame := h.frame
  log := hl.trans h.log
  store := .cons hregion (n.logAdmitted_iff.mp hadmit) h.store

theorem Node.PlacesRows.row {region : Region} {row : Nat} {bytes : List Byte} (hadmit : n.logAdmitted = true)
    (hregion : region.isLog = true) (h : (n.placeRow region row bytes).PlacesRows rows m) :
    n.PlacesRows (⟨region, row, bytes⟩ :: rows) m :=
  .cons (l := n.log) hadmit hregion h (.refl _)

/-- A row of the log placed where an entry is free leaves the queue within its capacity. -/
theorem Node.placeRow_logFits (hadmit : n.logAdmitted = true) {region : Region} (hregion : region.isLog = true) (row : Nat)
    (bytes : List Byte) : (n.placeRow region row bytes).store.LogFits := by
  have hfree := n.logAdmitted_iff.mp hadmit
  simp only [Store.LogFits, Node.placeRow, Node.withStore_store, Store.place_staging, Store.place_forCards, hregion, if_true,
    List.length_append, List.length_singleton]
  omega

theorem Node.placeLifetime_places (h : n.store.LogFits) (bytes : List Byte) :
    n.PlacesRows [⟨.accounting, 1, bytes⟩] (n.placeLifetime bytes) := by
  unfold Node.placeLifetime
  split
  next hadmit => exact .cons hadmit rfl ⟨rfl, rfl, .none (n.placeRow_logFits hadmit rfl 1 bytes)⟩
  next hfull => exact .full h hfull

theorem Node.placeAccounting_places (h : n.store.LogFits) :
    n.PlacesRows (accountingRows n.log.accounting) n.placeAccounting := by
  unfold Node.placeAccounting
  split
  next hadmit =>
    refine .cons hadmit rfl (Node.placeLifetime_places (n := Node.withLog _ _) ?_ _)
    exact n.placeRow_logFits hadmit rfl 0 _
  next hfull => exact .full h hfull

/-- An accounting row write to be placed whole (R92). -/
theorem Node.placeWaiting_places (h : n.store.LogFits) (hpair : n.log.pair = .both) :
    n.PlacesRows (accountingRows n.log.accounting) n.placeWaiting := by
  unfold Node.placeWaiting
  rw [hpair]
  exact n.placeAccounting_places h

/-- With an entry free the accounting row is placed, and accounting is due no more (R93). -/
theorem Node.placeAccounting_due (hadmit : n.logAdmitted = true) : n.placeAccounting.log.due = false := by
  unfold Node.placeAccounting Node.placeLifetime
  rw [if_pos hadmit]
  split <;> rfl

end

/-! ### The item taken (R95, R98) -/

/-- The log once the oldest item has left the append list and is appended, or counted, or lost. -/
def Log.taken (l : Log) (e : LogEntry) (rest : List LogEntry) : Log :=
  let l := { l with appendList := rest, markAhead := l.markAhead - 1 }
  if l.isFull || e.isOverflow then
    match e.body with
    | .deposit _ charge _ _ _ => { l with accounting := l.accounting.overflowed charge, working := some e, pair := .both }
    | .overflowDeposit => { l with working := some e, pair := .both }
    | _ => l.lose e
  else
    { l with
      held := l.held ++ [⟨l.accounting.next, e, false⟩]
      accounting := { l.accounting with next := l.accounting.next + 1 }
      working := some e
      pair := .both
      mark := l.mark.filter (fun m => logRowOf m.seq != logRowOf l.accounting.next) }

/-- The rows placed for an item taken. -/
def Log.takenRows (l : Log) (e : LogEntry) (after : Accounting) : List RowWrite :=
  if l.isFull || e.isOverflow then
    if e.isDeposit then accountingRows after else []
  else
    ⟨.log, logRowOf l.accounting.next, logRow ⟨l.accounting.next, e, false⟩⟩ :: accountingRows after

/-- What is done with an item: its rows are placed behind the change of the log. -/
theorem Node.itemTaken_places {n : Node} (hadmit : n.logAdmitted = true) (e : LogEntry) (rest : List LogEntry) :
    (n.withLog (n.log.taken e rest)).PlacesRows (n.log.takenRows e (n.log.taken e rest).accounting) (n.itemTaken e rest) := by
  have hfits : n.store.LogFits := (n.logAdmitted_iff.mp hadmit).le
  have hfull : ({ n.log with appendList := rest, markAhead := n.log.markAhead - 1 } : Log).isFull = n.log.isFull := rfl
  unfold Node.itemTaken Log.taken Log.takenRows
  simp only [Node.withLog_log, hfull]
  cases hover : n.log.isFull || e.isOverflow with
  | true =>
    unfold Node.overflowItem LogEntry.isDeposit
    simp only [if_true]
    cases hbody : e.body with
    | deposit => exact Node.placeWaiting_places (n := Node.withLog _ _) hfits rfl
    | overflowDeposit => exact Node.placeWaiting_places (n := Node.withLog _ _) hfits rfl
    | _ => exact ⟨rfl, rfl, .none hfits⟩
  | false =>
    unfold Node.appendRecord
    simp only [Bool.false_eq_true, if_false]
    refine .row hadmit rfl (Node.placeWaiting_places ?_ rfl)
    exact Node.placeRow_logFits (by exact hadmit) rfl _ _

/-- What every item taken leaves of the log. -/
theorem Log.taken_lists (l : Log) (e : LogEntry) (rest : List LogEntry) : (l.taken e rest).appendList = rest ∧
    (l.taken e rest).markAhead = l.markAhead - 1 ∧ (l.taken e rest).phase = l.phase := by
  unfold Log.taken
  dsimp only
  split
  · split <;> exact ⟨rfl, rfl, rfl⟩
  · exact ⟨rfl, rfl, rfl⟩

section
variable {l : Log} {e : LogEntry} {rest : List LogEntry}

/-- An overflow deposit that a rollover has counted is worked without a record (R81). -/
theorem Log.taken_of_overflow (h : e.isOverflow = true) : l.taken e rest =
    { l with appendList := rest, markAhead := l.markAhead - 1, working := some e, pair := .both } := by
  simp [Log.taken, h, e.isOverflow_iff.mp h]

theorem Log.takenRows_of_overflow (h : e.isOverflow = true) (after : Accounting) :
    l.takenRows e after = accountingRows after := by
  simp [Log.takenRows, h, LogEntry.isDeposit, e.isOverflow_iff.mp h]

/-- A pending mark is discarded when its row is taken (R103). -/
theorem filter_sameRow (r : LogRecord) (q : Sequence) :
    (some r).filter (fun m => logRowOf m.seq != logRowOf q) =
      if r.seq.toNat % 1024 = q.toNat % 1024 then none else some r := by
  rw [Option.filter_some]
  simp [logRowOf, logCapacity]

/-- With room for it the item is appended (R95). -/
theorem Log.taken_of_room (hroom : l.held.length < 1024) (h : e.isOverflow = false) : l.taken e rest =
    { l with
      appendList := rest
      markAhead := l.markAhead - 1
      held := l.held ++ [⟨l.accounting.next, e, false⟩]
      accounting := { l.accounting with next := l.accounting.next + 1 }
      working := some e
      pair := .both
      mark := l.mark.filter (fun m => logRowOf m.seq != logRowOf l.accounting.next) } := by
  simp [Log.taken, Log.isFull, logCapacity, h, Nat.not_le.mpr hroom]

theorem Log.takenRows_of_room (hroom : l.held.length < 1024) (h : e.isOverflow = false) (after : Accounting) :
    l.takenRows e after =
      ⟨.log, logRowOf l.accounting.next, logRow ⟨l.accounting.next, e, false⟩⟩ :: accountingRows after := by
  simp [Log.takenRows, Log.isFull, logCapacity, h, Nat.not_le.mpr hroom]

/-- In a full log a DEPOSIT is counted (R98). -/
theorem Log.taken_of_deposit (hfull : 1024 ≤ l.held.length) (h : e.isOverflow = false) (hdeposit : e.isDeposit = true) :
    l.taken e rest = { l with
      appendList := rest
      markAhead := l.markAhead - 1
      accounting := l.accounting.overflowed e.charge
      working := some e
      pair := .both } := by
  rcases e.isDeposit_iff.mp hdeposit with ⟨_, _, _, _, _, hbody⟩ | hbody
  · simp [Log.taken, Log.isFull, logCapacity, hfull, hbody, LogEntry.charge]
  · exact absurd (e.isOverflow_iff.mpr hbody) (by simp [h])

/-- In a full log any other record is lost (R98). -/
theorem Log.taken_of_other (hfull : 1024 ≤ l.held.length) (hdeposit : e.isDeposit = false) :
    l.taken e rest = Log.lose { l with appendList := rest, markAhead := l.markAhead - 1 } e := by
  unfold LogEntry.isDeposit at hdeposit
  cases hbody : e.body <;> simp_all [Log.taken, Log.isFull, logCapacity]

theorem Log.takenRows_of_full (hfull : 1024 ≤ l.held.length) (after : Accounting) :
    l.takenRows e after = if e.isDeposit then accountingRows after else [] := by
  simp [Log.takenRows, Log.isFull, logCapacity, hfull]

end

/-! ### The log after an item, its rows placed -/

section
variable {l k : Log} {e : LogEntry} {rest : List LogEntry} (hlog : (l.taken e rest).SameButRows k)
include hlog

theorem Log.SameButRows.of_overflow (hover : e.isOverflow = true) :
    k.held = l.held ∧ k.mark = l.mark ∧ k.accounting = l.accounting ∧ k.lost = l.lost := by
  rw [Log.taken_of_overflow hover] at hlog
  exact ⟨hlog.held, hlog.mark, hlog.accounting, hlog.lost⟩

theorem Log.SameButRows.of_room (hroom : l.held.length < 1024) (hover : e.isOverflow = false) :
    k.held = l.held ++ [⟨l.accounting.next, e, false⟩] ∧
      k.accounting = { l.accounting with next := l.accounting.next + 1 } ∧
      (∀ m, l.mark = some m →
        k.mark = if m.seq.toNat % 1024 = l.accounting.next.toNat % 1024 then none else some m) ∧
      (l.mark = none → k.mark = none) := by
  rw [Log.taken_of_room hroom hover] at hlog
  refine ⟨hlog.held, hlog.accounting, fun m hm => hlog.mark.trans ?_, fun hnone => hlog.mark.trans ?_⟩
  · rw [hm]
    exact filter_sameRow m _
  · rw [hnone]
    rfl

theorem Log.SameButRows.of_full (hfull : 1024 ≤ l.held.length) (hover : e.isOverflow = false) :
    k.held = l.held ∧ k.mark = l.mark ∧
      if e.isDeposit = true then k.accounting = l.accounting.overflowed e.charge ∧ k.lost = l.lost
      else k.accounting = l.accounting ∧ k.lost = min 65535 (l.lost + 1) := by
  cases hdeposit : e.isDeposit with
  | true =>
    rw [Log.taken_of_deposit hfull hover hdeposit] at hlog
    exact ⟨hlog.held, hlog.mark, hlog.accounting, hlog.lost⟩
  | false =>
    rw [Log.taken_of_other hfull hdeposit] at hlog
    exact ⟨hlog.held, hlog.mark, hlog.accounting, hlog.lost⟩

end

/-! ### What stays of the entries kept (R89) -/

/-- What rows placed by the log and the release of the entries kept for it make of the staging queue and of those entries. -/
structure Node.WritesRows (n : Node) (rows : List RowWrite) (m : Node) : Prop where
  staging : m.store.staging = (n.store.staging ++ rows).take (4 - n.store.forCards)
  cells   : m.store.cells = n.store.cells
  working : m.log.hasWork = true →
    m.store.forLog = n.store.forLog - (m.store.staging.length - n.store.staging.length) ∧
      m.store.forCards = n.store.forCards
  idle    : m.log.hasWork = false → m.store.forLog = 0 ∧
    m.store.forCards = if 4 ≤ n.store.staging.length + n.store.forLog + n.store.forCards then
      min n.cards.rowsWaiting (4 - m.store.staging.length) else n.store.forCards

section
variable {n m : Node} {rows : List RowWrite}

/-- What is released is of the store alone. -/
theorem Node.releaseFreed_frame (n : Node) (taken : Bool) :
    n.withStore (n.releaseFreed taken).store = n.releaseFreed taken := by
  unfold Node.releaseFreed
  split <;> rfl

theorem Node.releaseFreed_frame_of (h : (n.withStore m.store).withLog m.log = m) (taken : Bool) :
    (n.withStore (m.releaseFreed taken).store).withLog (m.releaseFreed taken).log = m.releaseFreed taken := by
  rw [← Node.releaseFreed_frame, ← h]
  rfl

theorem Node.releaseFreed_log (n : Node) (taken : Bool) : (n.releaseFreed taken).log = n.log :=
  (congrArg Node.log (n.releaseFreed_frame taken)).symm

/-- With something to write the log has the entries kept for it. -/
theorem Node.entriesTaken_of_work (h : n.log.hasWork = true) :
    n.entriesTaken = decide (4 ≤ n.store.staging.length + n.store.forLog + n.store.forCards) := by
  simp [Node.entriesTaken, Node.entriesForLog, h, stagingCapacity]

theorem Node.WritesRows.release (hwork : n.log.hasWork = true) (placed : n.store.PlacesRows rows m.store)
    (hcards : m.cards = n.cards) : n.WritesRows rows (m.releaseFreed n.entriesTaken) := by
  cases hafter : m.log.hasWork with
  | true =>
    rw [Node.releaseFreed_working hafter]
    exact ⟨placed.staging, placed.cells, fun _ => ⟨placed.forLog, placed.forCards⟩, by simp [hafter]⟩
  | false =>
    rw [Node.releaseFreed_idle hafter]
    refine ⟨placed.staging, placed.cells, fun h => absurd (hafter.symm.trans h) nofun, fun _ => ⟨rfl, ?_⟩⟩
    simp [Node.entriesTaken_of_work hwork, hcards, placed.forCards, stagingCapacity]

end

/-! ### RECORD_APPEND (R76, R95, R98) -/

section
variable {n : Node} {e : LogEntry} {rest : List LogEntry}

/-- The item taken with its rows placed and the entries released. -/
def Node.itemWritten (n : Node) (e : LogEntry) (rest : List LogEntry) : Node :=
  (n.itemTaken e rest).releaseFreed n.entriesTaken

theorem Node.itemWritten_frame (hready : n.logReady = true) :
    (n.withStore (n.itemWritten e rest).store).withLog (n.itemWritten e rest).log = n.itemWritten e rest := by
  obtain ⟨-, -, -, hadmit⟩ := n.logReady_iff.mp hready
  exact Node.releaseFreed_frame_of (n := n) (by exact (Node.itemTaken_places hadmit e rest).frame) _

theorem Node.itemWritten_log (hready : n.logReady = true) :
    (n.log.taken e rest).SameButRows (n.itemWritten e rest).log := by
  obtain ⟨-, -, -, hadmit⟩ := n.logReady_iff.mp hready
  unfold Node.itemWritten
  rw [Node.releaseFreed_log]
  exact (Node.itemTaken_places hadmit e rest).log

theorem Node.itemWritten_rows (h : n.log.appendList = e :: rest) (hready : n.logReady = true) :
    n.WritesRows (n.log.takenRows e (n.itemWritten e rest).log.accounting) (n.itemWritten e rest) := by
  rw [(Node.itemWritten_log hready).accounting]
  obtain ⟨hphase, -, -, hadmit⟩ := n.logReady_iff.mp hready
  have hwork : n.log.hasWork = true := n.log.hasWork_iff.mpr ⟨hphase, by simp [h]⟩
  exact .release hwork (by exact (Node.itemTaken_places hadmit e rest).store) (n.itemTaken_cards e rest)

/-- Behind the writing of the item only the tally table changes: the rebuild ends unless a RESTART record still waits. -/
theorem Node.appendOldest_eq_withTally (h : n.log.appendList = e :: rest) (hready : n.logReady = true) :
    n.appendOldest = (n.itemWritten e rest).withTally
      (if rest.any LogEntry.isRestart = false ∧ n.tally.rebuilt = false then
        { (n.itemWritten e rest).log.held.foldl (rebuildRecord n.clock.day) n.tally with rebuilt := true }
      else n.tally) := by
  obtain ⟨hphase, -, -, -⟩ := n.logReady_iff.mp hready
  have hlog : (n.itemWritten e rest).log.phase = .opened := by
    obtain ⟨-, -, hsame⟩ := n.log.taken_lists e rest
    rw [(Node.itemWritten_log hready).phase, hsame, hphase]
  have hframe := Node.itemWritten_frame (e := e) (rest := rest) hready
  have htally : (n.itemWritten e rest).tally = n.tally := (congrArg Node.tally hframe).symm
  have hclock : (n.itemWritten e rest).clock = n.clock := (congrArg Node.clock hframe).symm
  rw [Node.appendOldest_of h hready]
  cases hany : rest.any LogEntry.isRestart with
  | true =>
    simp only [if_true, reduceCtorEq, false_and, if_false, ← htally]
    rfl
  | false =>
    simp only [Bool.false_eq_true, if_false, true_and]
    rw [Node.endRebuild_releaseFreed, ← Node.itemWritten, Node.endRebuild, Node.tallyInUse, htally, hclock, hlog]
    simp

end

/-! ### The table rebuilt from empty (R76) -/

/-- The rebuild of an empty table with room for every card that deposited. -/
theorem rebuild_of_empty {t : Tally} (hentries : t.entries = []) {cards : List CardNumber} (hfew : cards.length ≤ 384)
    {day : Nat} {records : List LogRecord} {deposits : CardNumber → List LogRecord}
    (hdeposits : ∀ card, deposits card = records.filter (fun r => r.depositCard day == some card))
    (hcards : ∀ card, deposits card ≠ [] → card ∈ cards) :
    (records.foldl (rebuildRecord day) t).loss = t.loss ∧ ∀ card,
      (tallyEntry card (records.foldl (rebuildRecord day) t).entries).map (fun e => (e.loc, e.heard)) =
        if deposits card = [] then none else some (min 15 (deposits card).length, 0) := by
  have hempty : t.Holds t.loss cards (fun _ => 0) :=
    ⟨rfl, by simp [hentries], by simp [hentries], by simp [hentries, tallyEntry]⟩
  have among : ∀ r ∈ records, ∀ card, r.depositCard day = some card → card ∈ cards := by
    intro r hr card hcard
    refine hcards card (List.ne_nil_of_mem (a := r) ?_)
    simp [hdeposits, hr, hcard]
  have rebuilt := hempty.rebuild hfew day records among
  refine ⟨rebuilt.loss, fun card => ?_⟩
  rw [rebuilt.counts card, depositsOn, ← hdeposits]
  simp

/-! ### ACCOUNTING_WRITE and CONFIRM_MARK_WRITE (R92, R93, R103) -/

section
variable {n : Node}

theorem Node.writeAccounting_of (hready : n.logReady = true) (hdue : n.log.due = true) (hlist : n.log.appendList = []) :
    n.writeAccounting = n.placeAccounting.releaseFreed n.entriesTaken := by
  simp [Node.writeAccounting, hready, hdue, hlist]

theorem Node.writeMark_of {r : LogRecord} (hready : n.logReady = true) (hmark : n.log.mark = some r)
    (hahead : n.log.markAhead = 0) : n.writeMark =
      ((n.placeRow .log (logRowOf r.seq) (logRow { r with confirmed := true })).withLog
        { n.log with mark := none }).releaseFreed n.entriesTaken := by
  simp [Node.writeMark, hready, hmark, hahead]

/-- Until the log may begin a write both wait. -/
theorem Node.writeAccounting_waits (hready : n.logReady = false) : n.writeAccounting = n := by
  simp [Node.writeAccounting, hready]

theorem Node.writeMark_waits (hready : n.logReady = false) : n.writeMark = n := by
  unfold Node.writeMark
  split <;> simp [hready]

/-- With the mark written the log has more to write while an item waits or accounting is due. -/
theorem Node.hasWork_unmarked (hready : n.logReady = true) :
    ({ n.log with mark := none } : Log).hasWork = true ↔ n.log.appendList ≠ [] ∨ n.log.due = true := by
  obtain ⟨hphase, hpair, hworking, -⟩ := n.logReady_iff.mp hready
  simp [Log.hasWork_iff, hphase, hpair, hworking]

/-- The mark is written as its record's row; with nothing more to write the log's entries are given up (R89, R103). -/
theorem Node.writeMark_eq {r : LogRecord} (hready : n.logReady = true) (hmark : n.log.mark = some r)
    (hahead : n.log.markAhead = 0) {more : Prop} [Decidable more]
    (hmore : more ↔ n.log.appendList ≠ [] ∨ n.log.due = true) :
    n.writeMark = (n.withLog { n.log with mark := none }).withStore
      { n.store.place n.now ⟨.log, r.seq.toNat % 1024, logRow { r with confirmed := true }⟩ with
        forLog := if more then n.store.forLog - 1 else 0
        forCards := if ¬ more ∧ 4 ≤ n.store.staging.length + n.store.forLog + n.store.forCards then
          min n.cards.rowsWaiting (4 - (n.store.staging.length + 1)) else n.store.forCards } := by
  obtain ⟨hphase, -, -, -⟩ := n.logReady_iff.mp hready
  have hwork : n.log.hasWork = true := n.log.hasWork_iff.mpr ⟨hphase, by simp [hmark]⟩
  have hafter := hmore.trans (Node.hasWork_unmarked hready).symm
  rw [Node.writeMark_of hready hmark hahead, Node.entriesTaken_of_work hwork]
  by_cases h : more
  · rw [Node.releaseFreed_working (hafter.mp h), if_pos h, if_neg (by simp [h])]
    rfl
  · rw [Node.releaseFreed_idle (by simpa using mt hafter.mpr h), if_neg h]
    simp only [h, not_false_eq_true, true_and, decide_eq_true_eq, Node.placeRow, Node.withStore_store, Node.withLog_store,
      Store.place_staging, List.length_append, List.length_singleton]
    rfl

end

end Sys2Proof.Machine

/-- Settles O30: an item taken is `Log.taken` with the rows of `Log.takenRows`; the two other writes place theirs; and each
waits until the log may begin a write. -/
theorem logWritesAreTakenInOrder : Obligations.LogWritesAreTakenInOrder := by
  refine ⟨fun s dt e rest hacts hready hlist => ?_, fun s dt hacts hready => ⟨fun hdue hlist => ?_, fun r hmark hahead => ?_⟩,
    fun s dt hacts hready c hc => ?_⟩
  · intro l b rows
    let n := s.node.advance dt
    have hready : n.logReady = true := hready
    have hlist : n.log.appendList = e :: rest := hlist
    have hexec : exec (.recordAppend dt) s = .next ⟨n.appendOldest, s.pending⟩ := s.perform_station hacts dt _
    rw [Node.appendOldest_eq_withTally hlist hready] at hexec
    have hframe := Node.itemWritten_frame (e := e) (rest := rest) hready
    have hlog := Node.itemWritten_log (e := e) (rest := rest) hready
    have hrows := Node.itemWritten_rows hlist hready
    have hfits : n.store.staging.length ≤ 4 - n.store.forCards := by
      obtain ⟨-, -, -, hadmit⟩ := n.logReady_iff.mp hready
      have hfree : n.store.staging.length + n.store.forCards < 4 := n.logAdmitted_iff.mp hadmit
      omega
    obtain ⟨happend, hahead, -⟩ := n.log.taken_lists e rest
    generalize n.itemWritten e rest = m at *
    have hstaging := hrows.staging
    refine ⟨_, hexec, hlog.appendList.trans happend, hlog.markAhead.trans hahead,
      (congrArg Node.cards hframe).symm, (congrArg Node.hatch hframe).symm, (congrArg Node.sounding hframe).symm,
      (congrArg Node.clock hframe).symm, hrows.cells, fun hover => ?_, fun hroom hover => ?_, fun hfull hover => ?_,
      hrows.working, hrows.idle, rfl, ?_⟩
    · obtain ⟨hheld, hmark, haccounting, hlost⟩ := hlog.of_overflow hover
      rw [Log.takenRows_of_overflow hover, haccounting] at hstaging
      exact ⟨hheld, hmark, haccounting, hstaging, hlost⟩
    · obtain ⟨hheld, haccounting, hmark, hnone⟩ := hlog.of_room hroom hover
      rw [Log.takenRows_of_room (l := n.log) hroom hover] at hstaging
      exact ⟨hheld, haccounting, hmark, hnone, hstaging⟩
    · obtain ⟨hheld, hmark, hcounted⟩ := hlog.of_full hfull hover
      rw [Log.takenRows_of_full (l := n.log) hfull] at hstaging
      refine ⟨hheld, hmark, ?_⟩
      cases hdeposit : e.isDeposit with
      | true =>
        rw [if_pos hdeposit] at hstaging hcounted
        exact ⟨hcounted.1, hstaging, hcounted.2⟩
      | false =>
        rw [if_neg (by simp [hdeposit])] at hstaging hcounted
        rw [List.append_nil, List.take_of_length_le hfits] at hstaging
        exact ⟨hcounted.1, hstaging, hcounted.2⟩
    · intro deposits hany hrebuilt hempty hfew
      obtain ⟨cards, hlength, hcards⟩ := hfew
      have hdeposits : ∀ card, deposits card =
          m.log.held.filter (fun r => r.depositCard n.clock.day == some card) := fun card => by
        refine List.filter_congr fun r _ => ?_
        unfold LogRecord.depositCard
        cases r.entry.body with
        | deposit c => by_cases hday : r.entry.day = s.node.clock.day <;> simp [hday, n]
        | _ => rfl
      rw [if_pos ⟨hany, hrebuilt⟩]
      exact rebuild_of_empty (t := n.tally) hempty hlength hdeposits hcards
  · let n := s.node.advance dt
    have hready : n.logReady = true := hready
    obtain ⟨hphase, -, -, hadmit⟩ := n.logReady_iff.mp hready
    have placed := n.placeAccounting_places (n.logAdmitted_iff.mp hadmit).le
    have hwork : n.log.hasWork = true := n.log.hasWork_iff.mpr ⟨hphase, .inr (.inr (.inr (.inl hdue)))⟩
    have hrows := Node.WritesRows.release hwork placed.store (congrArg Node.cards placed.frame).symm
    have hlog := n.placeAccounting.releaseFreed_log n.entriesTaken
    have hframe := Node.releaseFreed_frame_of placed.frame n.entriesTaken
    have hexec : exec (.accountingWrite dt) s = .next ⟨n.writeAccounting, s.pending⟩ := s.perform_station hacts dt _
    rw [Node.writeAccounting_of hready hdue hlist] at hexec
    refine ⟨_, hexec, ?_, hrows.staging, hrows.working, hrows.idle, ?_, ?_, hrows.cells, ?_, ?_⟩
    · rw [hlog]; exact Node.placeAccounting_due hadmit
    · rw [hlog]; exact placed.log.accounting
    · rw [hlog]; exact placed.log.held
    · exact (congrArg Node.cards hframe).symm
    · exact (congrArg Node.hatch hframe).symm
  · intro more
    have hexec : exec (.confirmMarkWrite dt) s = .next ⟨(s.node.advance dt).writeMark, s.pending⟩ :=
      s.perform_station hacts dt _
    rw [hexec, Node.writeMark_eq (n := s.node.advance dt) (more := more) hready hmark hahead Iff.rfl]
    rfl
  · have waits {f : Node → Node} (h : f (s.node.advance dt) = s.node.advance dt) :
        s.perform dt (fun n => n.whenStation f) = .next ⟨{ s.node with now := s.node.now + dt }, s.pending⟩ := by
      rw [State.perform_station hacts, h]
      rfl
    rcases hc with rfl | rfl | rfl
    · exact waits (Node.appendOldest_waits (.inr hready))
    · exact waits (Node.writeAccounting_waits hready)
    · exact waits (Node.writeMark_waits hready)

end
